-- ==== Sys2Proof/Word.lean ====
section
/-! DEFINITION. The word types of the block and their plainest arithmetic: unsigned values numbered with
bit 0 least significant (00_scope.md R7), zero extension (R7). -/

namespace Sys2Proof

/-- A byte. -/
abbrev Byte := BitVec 8

/-- A 16-bit value: a keystream word, a ciphertext word, a character code, a checksum (00_scope.md R6). -/
abbrev Half := BitVec 16

/-- A 32-bit value: a generator state, a seed, a personality, `RES`, `ST` (00_scope.md R6). -/
abbrev Word := BitVec 32

/-- A 64-bit command word (30_encoding.md R60). -/
abbrev CommandWord := BitVec 64

/-- `zext_32` of a narrower value (00_scope.md R7). -/
abbrev zext32 {n : Nat} (v : BitVec n) : Word := v.setWidth 32

/-- `zext_64` of a narrower value (00_scope.md R7). -/
abbrev zext64 {n : Nat} (v : BitVec n) : CommandWord := v.setWidth 64

end Sys2Proof
end

