-- ==== Sys2Proof/Syntax.lean ====
section
/-! DEFINITION. The commands of the block as syntax: its operands, the nine opcodes and the instruction type with
one constructor per row of the opcode table (30_encoding.md R65), the rejection codes (60_exceptions.md R163), the
fields of format C64 (R61), and the commands as the assembler's text writes them (R70, R71). -/

namespace Sys2Proof

/-- Which keystream generator instance a command names: the field `G` (30_encoding.md R64). By convention instance
0 is the primary and instance 1 the battle-stat stream; the block does not enforce it (10_state.md R25). -/
inductive KsId where
  | ks0
  | ks1
deriving DecidableEq, Repr

/-- The other of the two instances. -/
def KsId.other : KsId → KsId
  | .ks0 => .ks1
  | .ks1 => .ks0

/-- A canonical 32-byte block of a creature's data: A=0, B=1, C=2, D=3 (00_scope.md R12). -/
inductive BlockId where
  | a
  | b
  | c
  | d
deriving DecidableEq, Repr

/-- The causes of a rejection (60_exceptions.md R163). -/
inductive RejectCode where
  /-- Code 1: `OP` is none of the nine. -/
  | illegalOpcode
  /-- Code 2: a must-be-zero bit of the command is set. -/
  | reservedField
  /-- Code 3: the command steps an instance that has not been seeded. -/
  | unseeded
  /-- Code 4: `PR.ENTRY` with an index of 24 or more. -/
  | indexRange
deriving DecidableEq, Repr

/-- The nine legal opcodes (30_encoding.md R65). -/
inductive Opcode where
  | nop
  | ksSeed
  | ksNext
  | xdWord
  | prSelect
  | prOffset
  | prEntry
  | cmLookup
  | cmLen
deriving DecidableEq, Repr

/-- The commands of the block with their operands (30_encoding.md R65, R63), one constructor per row of the opcode
table. -/
inductive Instr where
  /-- NOP (44_control.md R120). -/
  | nop
  /-- KS.SEED g, seed (40_keystream.md R80). -/
  | ksSeed (g : KsId) (seed : Word)
  /-- KS.NEXT g (40_keystream.md R82). -/
  | ksNext (g : KsId)
  /-- XD.WORD g, w (41_xor_decrypt.md R90). -/
  | xdWord (g : KsId) (w : Half)
  /-- PR.SELECT personality (42_permutation.md R104). -/
  | prSelect (pv : Word)
  /-- PR.OFFSET personality, block (42_permutation.md R105). -/
  | prOffset (pv : Word) (blk : BlockId)
  /-- PR.ENTRY index (42_permutation.md R106). -/
  | prEntry (idx : BitVec 5)
  /-- CM.LOOKUP code (43_charmap.md R110). -/
  | cmLookup (code : Half)
  /-- CM.LEN (43_charmap.md R112). -/
  | cmLen
deriving DecidableEq, Repr

/-- The fields of format C64 (30_encoding.md R61), `op` in bits 7:0 up to `d32` in bits 63:32. -/
structure C64 where
  op  : Byte
  g   : BitVec 1
  z   : BitVec 7
  a16 : Half
  d32 : Word
deriving DecidableEq, Repr

/-- A command as a line of assembler text gives it: mnemonics and pseudo-instructions with operands that are plain
numbers and may not fit their fields (30_encoding.md R70, R71). -/
inductive AsmInstr where
  | nop
  | ksSeed (g seed : Nat)
  | ksNext (g : Nat)
  | xdWord (g w : Nat)
  | prSelect (pv : Nat)
  | prOffset (pv blk : Nat)
  | prEntry (idx : Nat)
  | cmLookup (code : Nat)
  | cmLen
  /-- `KS.SEEDCHK chk16`. -/
  | ksSeedChk (chk : Nat)
  /-- `KS.SEEDPV pv32`. -/
  | ksSeedPv (pv : Nat)
  /-- `KS.SKIP g, n`. -/
  | ksSkip (g n : Nat)
deriving DecidableEq, Repr

end Sys2Proof
end

