-- ==== Sys2Proof/WellFormed.lean ====
section
/-! DEFINITION. The checks on syntax. An `Instr` is well formed by its types: every operand is exactly as wide as its
field (30_encoding.md R63). What can be ill formed is a set of C64 fields with a must-be-zero field set (R65), and a
line of assembler text with an operand that does not fit its field (R70). -/

namespace Sys2Proof

/-- The fields the opcode does not use are zero: the columns of 30_encoding.md R65 marked 0, with `Z` zero in every
command (R61). -/
def C64.unusedZero (f : C64) : Opcode → Bool
  | .nop      => f.z == 0 && f.g == 0 && f.a16 == 0 && f.d32 == 0
  | .ksSeed   => f.z == 0 && f.a16 == 0
  | .ksNext   => f.z == 0 && f.a16 == 0 && f.d32 == 0
  | .xdWord   => f.z == 0 && f.d32 == 0
  | .prSelect => f.z == 0 && f.g == 0 && f.a16 == 0
  | .prOffset => f.z == 0 && f.g == 0 && f.a16.extractLsb' 2 14 == 0
  | .prEntry  => f.z == 0 && f.g == 0 && f.a16.extractLsb' 5 11 == 0 && f.d32 == 0
  | .cmLookup => f.z == 0 && f.g == 0 && f.d32 == 0
  | .cmLen    => f.z == 0 && f.g == 0 && f.a16 == 0 && f.d32 == 0

/-- A number fits a field of that many bits. -/
def fitsBits (bits n : Nat) : Bool := decide (n < 2 ^ bits)

/-- Every operand fits its field; one that does not "is an assembly error, not an encoding" (30_encoding.md R70).
An index 24 to 31 fits. -/
def AsmInstr.wellFormed : AsmInstr → Bool
  | .nop            => true
  | .ksSeed g seed  => fitsBits 1 g && fitsBits 32 seed
  | .ksNext g       => fitsBits 1 g
  | .xdWord g w     => fitsBits 1 g && fitsBits 16 w
  | .prSelect pv    => fitsBits 32 pv
  | .prOffset pv blk => fitsBits 32 pv && fitsBits 2 blk
  | .prEntry idx    => fitsBits 5 idx
  | .cmLookup code  => fitsBits 16 code
  | .cmLen          => true
  | .ksSeedChk chk  => fitsBits 16 chk
  | .ksSeedPv pv    => fitsBits 32 pv
  | .ksSkip g _     => fitsBits 1 g

end Sys2Proof
end

