-- ==== Sys2Proof/Decode.lean ====
section
/-! DEFINITION. The encoding of the nine commands (30_encoding.md): opcode values, match and mask (R65, R66), the
decoder, total on all 2^64 words and on any bytes (R60, R67-R69), and the encoder (R62). -/

namespace Sys2Proof

/-! ### Operand numbers -/

/-- The value of the field `G` that selects an instance (30_encoding.md R64). -/
def KsId.bit : KsId → BitVec 1
  | .ks0 => 0
  | .ks1 => 1

/-- The instance a value of `G` selects (30_encoding.md R64). -/
def KsId.ofBit (b : BitVec 1) : KsId :=
  if b = 0 then .ks0 else .ks1

/-- The block id: A=0, B=1, C=2, D=3 (30_encoding.md R63). -/
def BlockId.bits : BlockId → BitVec 2
  | .a => 0
  | .b => 1
  | .c => 2
  | .d => 3

/-- The block a 2-bit id names (30_encoding.md R63). -/
def BlockId.ofBits (b : BitVec 2) : BlockId :=
  if b = 0 then .a else if b = 1 then .b else if b = 2 then .c else .d

/-! ### The opcode map -/

/-- The value of `OP` of each command (30_encoding.md R65). -/
def Opcode.code : Opcode → Byte
  | .nop      => 0x00
  | .ksSeed   => 0x01
  | .ksNext   => 0x02
  | .xdWord   => 0x03
  | .prSelect => 0x10
  | .prOffset => 0x11
  | .prEntry  => 0x12
  | .cmLookup => 0x20
  | .cmLen    => 0x21

/-- All nine opcodes, in the order of 30_encoding.md R65. -/
def Opcode.all : List Opcode :=
  [.nop, .ksSeed, .ksNext, .xdWord, .prSelect, .prOffset, .prEntry, .cmLookup, .cmLen]

/-- The command whose `OP` value a byte is, or none: an illegal opcode (30_encoding.md R67, R68). -/
def Opcode.ofByte (b : Byte) : Option Opcode :=
  Opcode.all.find? (fun o => o.code == b)

/-- The column `match` of 30_encoding.md R66. -/
def Opcode.pattern : Opcode → CommandWord
  | .nop      => 0x0000000000000000
  | .ksSeed   => 0x0000000000000001
  | .ksNext   => 0x0000000000000002
  | .xdWord   => 0x0000000000000003
  | .prSelect => 0x0000000000000010
  | .prOffset => 0x0000000000000011
  | .prEntry  => 0x0000000000000012
  | .cmLookup => 0x0000000000000020
  | .cmLen    => 0x0000000000000021

/-- The column `mask` of 30_encoding.md R66. -/
def Opcode.mask : Opcode → CommandWord
  | .nop      => 0xFFFFFFFFFFFFFFFF
  | .ksSeed   => 0x00000000FFFFFEFF
  | .ksNext   => 0xFFFFFFFFFFFFFEFF
  | .xdWord   => 0xFFFFFFFF0000FEFF
  | .prSelect => 0x00000000FFFFFFFF
  | .prOffset => 0x00000000FFFCFFFF
  | .prEntry  => 0xFFFFFFFFFFE0FFFF
  | .cmLookup => 0xFFFFFFFF0000FFFF
  | .cmLen    => 0xFFFFFFFFFFFFFFFF

/-! ### Fields of a command word -/

/-- The C64 fields of a command word (30_encoding.md R61). -/
def C64.ofWord (cw : CommandWord) : C64 where
  op  := cw.extractLsb' 0 8
  g   := cw.extractLsb' 8 1
  z   := cw.extractLsb' 9 7
  a16 := cw.extractLsb' 16 16
  d32 := cw.extractLsb' 32 32

/-- The command word of a set of fields: the formula of 30_encoding.md R62, with `Z` at its place (R61). -/
def C64.toWord (f : C64) : CommandWord :=
  zext64 f.op ||| (zext64 f.g <<< 8) ||| (zext64 f.z <<< 9) ||| (zext64 f.a16 <<< 16) ||| (zext64 f.d32 <<< 32)

/-! ### Decoding -/

/-- What a command word decodes to: a command, or the code it is rejected with (30_encoding.md R67). -/
inductive Decoded where
  | instr (i : Instr)
  | reject (c : RejectCode)
deriving DecidableEq, Repr

/-- The operands of a command, taken from its fields without scaling or extension (30_encoding.md R63). -/
def Instr.ofFields (f : C64) : Opcode → Instr
  | .nop      => .nop
  | .ksSeed   => .ksSeed (KsId.ofBit f.g) f.d32
  | .ksNext   => .ksNext (KsId.ofBit f.g)
  | .xdWord   => .xdWord (KsId.ofBit f.g) f.a16
  | .prSelect => .prSelect f.d32
  | .prOffset => .prOffset f.d32 (BlockId.ofBits (f.a16.extractLsb' 0 2))
  | .prEntry  => .prEntry (f.a16.extractLsb' 0 5)
  | .cmLookup => .cmLookup f.a16
  | .cmLen    => .cmLen

/-- The decoder, total on all 2^64 words: ILLEGAL_OPCODE first, then RESERVED_FIELD (30_encoding.md R67). -/
def decode (cw : CommandWord) : Decoded :=
  match Opcode.ofByte (C64.ofWord cw).op with
  | none => .reject .illegalOpcode
  | some op =>
    if cw &&& op.mask = op.pattern then .instr (Instr.ofFields (C64.ofWord cw) op) else .reject .reservedField

/-! ### Words as bytes -/

/-- The value of a list of bytes, the first the least significant (20_memory.md R46, R47). -/
def littleEndian : List Byte → Nat
  | [] => 0
  | b :: bs => b.toNat + 256 * littleEndian bs

/-- The `n` low bytes of a number, the least significant first (20_memory.md R46, R47). -/
def bytesOf : (n : Nat) → Nat → List Byte
  | 0, _ => []
  | n + 1, v => BitVec.ofNat 8 v :: bytesOf n (v / 256)

/-- The eight bytes of a command word: byte k holds bits 8k+7 : 8k (20_memory.md R47). -/
def CommandWord.bytes (cw : CommandWord) : List Byte := bytesOf 8 cw.toNat

/-- The command word of a 64-bit value seen as two 32-bit halves, bits 31:0 in the first (20_memory.md R47). -/
def CommandWord.ofHalves (first second : Word) : CommandWord :=
  zext64 first ||| (zext64 second <<< 32)

/-- What a decoder that is fed bytes finds next. -/
inductive ByteDecode where
  /-- Fewer than the eight bytes every command has (30_encoding.md R60): no command word yet. -/
  | incomplete
  /-- The next word's decoding and the bytes after it. -/
  | word (d : Decoded) (rest : List Byte)
deriving DecidableEq, Repr

/-- Decode the next command from bytes: always 8 bytes, least significant first (30_encoding.md R60). -/
def decodeBytes (bs : List Byte) : ByteDecode :=
  if bs.length < 8 then .incomplete
  else .word (decode (BitVec.ofNat 64 (littleEndian (bs.take 8)))) (bs.drop 8)

/-! ### Encoding -/

/-- The opcode of a command (30_encoding.md R65). -/
def Instr.opcode : Instr → Opcode
  | .nop          => .nop
  | .ksSeed _ _   => .ksSeed
  | .ksNext _     => .ksNext
  | .xdWord _ _   => .xdWord
  | .prSelect _   => .prSelect
  | .prOffset _ _ => .prOffset
  | .prEntry _    => .prEntry
  | .cmLookup _   => .cmLookup
  | .cmLen        => .cmLen

/-- The fields of a command; every field it does not use is zero (30_encoding.md R65). -/
def Instr.fields (i : Instr) : C64 :=
  match i with
  | .nop          => { op := i.opcode.code, g := 0, z := 0, a16 := 0, d32 := 0 }
  | .ksSeed g d   => { op := i.opcode.code, g := g.bit, z := 0, a16 := 0, d32 := d }
  | .ksNext g     => { op := i.opcode.code, g := g.bit, z := 0, a16 := 0, d32 := 0 }
  | .xdWord g w   => { op := i.opcode.code, g := g.bit, z := 0, a16 := w, d32 := 0 }
  | .prSelect d   => { op := i.opcode.code, g := 0, z := 0, a16 := 0, d32 := d }
  | .prOffset d blk => { op := i.opcode.code, g := 0, z := 0, a16 := blk.bits.setWidth 16, d32 := d }
  | .prEntry idx  => { op := i.opcode.code, g := 0, z := 0, a16 := idx.setWidth 16, d32 := 0 }
  | .cmLookup c   => { op := i.opcode.code, g := 0, z := 0, a16 := c, d32 := 0 }
  | .cmLen        => { op := i.opcode.code, g := 0, z := 0, a16 := 0, d32 := 0 }

/-- The command word of a command (30_encoding.md R62). -/
def encode (i : Instr) : CommandWord := i.fields.toWord

/-! ### The host's view of the opcode table -/

/-- The instruction read from a table word whose low `nbits` bits are `w` and whose other bits are zero, laid out as
the eight bytes of a command word. -/
def decodeTableWord (nbits w : Nat) : Option Instr :=
  match decodeBytes (bytesOf 8 (w % 2 ^ nbits)) with
  | .word (.instr i) _ => some i
  | _ => none

end Sys2Proof
end

