-- ==== Sys2Proof/Config.lean ====
section
/-! DEFINITION. What is fixed for the machine and no command changes (00_scope.md R6, 10_state.md R34): the
permutation table, the external character table, and the parameters of the system around the block. -/

namespace Sys2Proof

/-- A text unit as the block holds it: a name, which says nothing of what the unit is. The type of
the system's own units is open and opaque (00_scope.md R6), so it is an argument, together with a `UnitReading`, of
everything that speaks of them (Machine/TextUnits.lean). DESIGN CHOICE, log 3; safe. -/
structure TextUnit where
  name : Nat
deriving DecidableEq, Repr

/-- Which of the system's own text units, of any type `T`, each name stands for (00_scope.md R6). Two names may stand
for one unit. Log 3. -/
abbrev UnitReading (T : Type) := TextUnit → T

/-- `PERM_ROM`, the 24 entries of the permutation table (42_permutation.md R101). Rows 0-3 and 23 are the source's.
PRESUMED, log 8: rows 4-22 are general knowledge, in no source (93_implementation_defined.md I1); unsafe. -/
def Config.permRom : Vector Byte 24 :=
  #v[0xE4, 0xB4, 0xD8, 0x9C, 0x78, 0x6C, 0xE1, 0xB1, 0xD2, 0x93, 0x72, 0x63,
     0xC9, 0x8D, 0xC6, 0x87, 0x4E, 0x4B, 0x39, 0x2D, 0x36, 0x27, 0x1E, 0x1B]

/-- The greatest length of a character table: 0 ≤ L ≤ 65536 (00_scope.md R6). -/
def Config.maxTableLength : Nat := 65536

/-- The list of (names of) text units an external loader supplies; open, so it has no body (00_scope.md R6, 92_eei_decisions.md
D17). DESIGN CHOICE, log 4; safe. -/
opaque Config.loadedTable : List TextUnit

/-- The character table the block is configured with when it is first reset: the supplied list, within the length
00_scope.md R6 allows. DESIGN CHOICE, log 4; safe. -/
def Config.charTable : List TextUnit :=
  Config.loadedTable.take Config.maxTableLength

/-- `PARTY_OFFSET`: where the host finds the first party slot in its save buffer; open (00_scope.md R6). -/
opaque Config.partyOffset : Nat

/-- The reference value of `PARTY_OFFSET` (00_scope.md R6). -/
def Config.referencePartyOffset : Nat := 0xA0

/-- `BASE_ADDR`: where a system places the command port; open, and no rule depends on it (00_scope.md R6,
92_eei_decisions.md D20), so nothing reads it. -/
opaque Config.baseAddr : Nat

end Sys2Proof
end

