-- ==== Sys2Proof/Machine/State.lean ====
section
/-! DEFINITION. The state of one block as plain data: the registers of 10_state.md R20, the character table the block
is configured with (R34), and the host's actions still to come. The model's own fields are `port` (log 1) and `phase`
(log 6); the table is configuration carried in the state (log 4). -/

namespace Sys2Proof.Machine

/-- The cause of the most recent accepted CM.LOOKUP's result, `ST.SCAUSE` (10_state.md R30). -/
inductive StopCause where
  /-- 0, OK: a text unit was found. -/
  | ok
  /-- 1, END: code 0xFFFF. -/
  | endOfString
  /-- 2, NULL: code 0x0000. -/
  | null
  /-- 3, RANGE: a code at or past the table's length. -/
  | range
deriving DecidableEq, Repr

/-- What the host may do to the block (48_host_sequences.md R150). -/
inductive HostAction where
  /-- Issue a command word, after the previous response was read (70_reset_and_hazards.md R186). -/
  | command (cw : CommandWord)
  /-- Reset the block between commands (70_reset_and_hazards.md R181). -/
  | reset
  /-- Configure the character table (70_reset_and_hazards.md R183). -/
  | loadTable (table : List TextUnit)
  /-- Issue a command word before the response to the one before it: outside the spec (70_reset_and_hazards.md R186). -/
  | commandEarly (cw : CommandWord)
  /-- Reset while a command is being taken: outside the spec (70_reset_and_hazards.md R181). -/
  | resetDuring (cw : CommandWord)
deriving DecidableEq, Repr

/-- Where the run stands (48_host_sequences.md R151, 20_memory.md R45). DESIGN CHOICE, log 6; safe. -/
inductive RunPhase where
  /-- After a reset, no command taken yet: the character table may be configured. -/
  | fresh
  /-- A command has been taken since the reset: the table must not change. -/
  | running
  /-- The table was changed after the run's first command: a reset must come before the next command. -/
  | reloaded
deriving DecidableEq, Repr

/-- The state of one block. -/
structure State where
  /-- `KS[0]`, the full 32-bit state of generator instance 0 (10_state.md R23, R24). -/
  ks0 : Word
  /-- `KS[1]`, the full 32-bit state of generator instance 1 (10_state.md R23, R24). -/
  ks1 : Word
  /-- `SEEDED[0]`, seen also as `ST.SEEDED0` (10_state.md R26). -/
  seeded0 : Bool
  /-- `SEEDED[1]`, seen also as `ST.SEEDED1` (10_state.md R26). -/
  seeded1 : Bool
  /-- `RES` (10_state.md R27). -/
  res : Word
  /-- `TXT`, the text unit by its name (10_state.md R28; log 3). -/
  txt : Option TextUnit
  /-- `ST.STOP` (10_state.md R29, R30). -/
  stop : Bool
  /-- `ST.REJ` (10_state.md R29, R31). -/
  rej : Bool
  /-- `ST.ERR`, sticky (10_state.md R29, R31). -/
  err : Bool
  /-- `ST.ECODE`: the code of the most recent rejection, none if there was none since reset (10_state.md R31). -/
  ecode : Option RejectCode
  /-- `ST.SCAUSE` (10_state.md R29, R30). -/
  scause : StopCause
  /-- `CT`, its units by their names, whose length is `CT_LEN`: configuration, written by no command (10_state.md R34). -/
  charTable : List TextUnit
  /-- The model's own: where the run stands (log 6). -/
  phase : RunPhase
  /-- The model's own: the host's actions still to come, the next one first (log 1). -/
  port : List HostAction
deriving DecidableEq, Repr

/-- Why the machine could stop with a fault. It has no constructor: the block raises only rejections, which are next
states (60_exceptions.md R160), and its arithmetic is total (40_keystream.md R84). -/
inductive Fault where
deriving DecidableEq, Repr

/-- Why a step has no meaning: what the spec puts outside itself. -/
inductive Refusal where
  /-- Raised by `exec` for an instruction that has no meaning yet (none in this model); safe. -/
  | notModelled (mnemonic : String)
  /-- Raised by the step for a command issued before the previous response (93_implementation_defined.md U9, log 7);
  safe. -/
  | commandBeforeResponse
  /-- Raised by the step for a reset while a command is being taken (93_implementation_defined.md U10, log 7); safe. -/
  | resetDuringCommand
  /-- Raised by the step for a command after the table was changed during the run (93_implementation_defined.md U8,
  log 5); safe. -/
  | tableChangedDuringRun
  /-- Raised by the step for a table longer than 65536 units, outside 00_scope.md R6 (log 5); safe. -/
  | tableTooLong
deriving DecidableEq, Repr

/-- The block right after reset (70_reset_and_hazards.md R180), configured with the system's character table (log 4),
with nothing on its port (log 1). `KS` is 0 as R180 says, which no command can observe (log 9). -/
def State.reset : State where
  ks0 := 0
  ks1 := 0
  seeded0 := false
  seeded1 := false
  res := 0
  txt := none
  stop := false
  rej := false
  err := false
  ecode := none
  scause := .ok
  charTable := Config.charTable
  phase := .fresh
  port := []

end Sys2Proof.Machine
end

