-- ==== Sys2Proof/Machine/Flags.lean ====
section
/-! DEFINITION. The status register: the numbers of its codes (10_state.md R30, R31), its layout (R29), and how a
character code sets the stop flag and its cause (43_charmap.md R110, R111). -/

namespace Sys2Proof.Machine

/-- The number of a rejection code (60_exceptions.md R163). -/
def rejectNumber : RejectCode → BitVec 4
  | .illegalOpcode => 1
  | .reservedField => 2
  | .unseeded      => 3
  | .indexRange    => 4

/-- `ST.ECODE`: 0 if no command has been rejected since reset (10_state.md R31). -/
def ecodeBits : Option RejectCode → BitVec 4
  | none   => 0
  | some c => rejectNumber c

/-- `ST.SCAUSE` (10_state.md R30). -/
def scauseBits : StopCause → BitVec 2
  | .ok          => 0
  | .endOfString => 1
  | .null        => 2
  | .range       => 3

/-- A flag as one bit. -/
def flagBit (b : Bool) : BitVec 1 := BitVec.ofBool b

/-- The status register as the host reads it: the layout of 10_state.md R29, most significant field first; the
reserved fields are hard-wired to 0 and the `SEEDED` bits mirror the instances' (R26). Log 10; safe. -/
def State.st (s : State) : Word :=
  (0 : BitVec 20) ++ scauseBits s.scause ++ flagBit s.seeded1 ++ flagBit s.seeded0 ++ ecodeBits s.ecode
    ++ (0 : BitVec 1) ++ flagBit s.err ++ flagBit s.rej ++ flagBit s.stop

/-- The stop cause of a character code for a table of length `len`, the first that applies in the order END, NULL,
RANGE (43_charmap.md R110, R111). -/
def stopCauseOf (len : Nat) (code : Half) : StopCause :=
  if code = 0xFFFF then .endOfString
  else if code = 0x0000 then .null
  else if len ≤ code.toNat then .range
  else .ok

/-- Whether a stop cause is a Stop: every cause but OK (10_state.md R30). -/
def isStop (c : StopCause) : Bool := decide (c ≠ .ok)

/-- The text unit a lookup returns: `CT[code]` on success, none on Stop; the table is read only after Stop is decided
(43_charmap.md R110, 20_memory.md R44). It is the same for text units of every type (00_scope.md R6). -/
def textUnitOf {T : Type} (table : List T) (code : Half) : Option T :=
  match stopCauseOf table.length code with
  | .ok          => table[code.toNat]?
  | .endOfString => none
  | .null        => none
  | .range       => none

end Sys2Proof.Machine
end

