-- ==== Sys2Proof/Machine/Operands.lean ====
section
/-! DEFINITION. The arithmetic of operands and tables: the generator step (00_scope.md R10), the permutation selector
(R11), and reads of the permutation table (42_permutation.md R100, R105). -/

namespace Sys2Proof.Machine

/-- The generator step, modulo 2^32 (00_scope.md R10). -/
def lcg (s : Word) : Word := 0x41C64E6D * s + 0x6073

/-- The keystream word of a generator state: bits 31:16 (00_scope.md R10). -/
def keystreamWord (s : Word) : Half := s.extractLsb' 16 16

/-- The generator state `n` steps after a seed, `lcg^n` (40_keystream.md R81). -/
def lcgIter : Nat → Word → Word
  | 0, s => s
  | n + 1, s => lcgIter n (lcg s)

/-- The `n`-th keystream word of a seed, `k_n` (40_keystream.md R81). -/
def keystream (n : Nat) (seed : Word) : Half := keystreamWord (lcgIter n seed)

/-- The permutation selector, always in 0..23 (00_scope.md R11). -/
def sel (pv : Word) : Fin 24 :=
  ⟨((pv &&& 0x0003E000) >>> 13).toNat % 24, Nat.mod_lt _ (by decide)⟩

/-- The number of a block: A=0, B=1, C=2, D=3 (00_scope.md R12). -/
def blockNumber (blk : BlockId) : Nat := blk.bits.toNat

/-- The original position of a block in a table entry: `e[2b+1 : 2b]` (42_permutation.md R100). -/
def pos (e : Byte) (blk : BlockId) : BitVec 2 := e.extractLsb' (2 * blockNumber blk) 2

/-- The plaintext-prefix offset of a block under a table entry: 8 + 32 times its original position (42_permutation.md
R105). -/
def blockOffset (e : Byte) (blk : BlockId) : Word := 8 + 32 * zext32 (pos e blk)

end Sys2Proof.Machine
end

