-- ==== Sys2Proof/Machine/Ops.lean ====
section
/-! DEFINITION. The named operations over the registers: access to a generator instance (10_state.md R25), stepping it
(40_keystream.md R82), acceptance and rejection of a command (60_exceptions.md R161, R162), reset
(70_reset_and_hazards.md R181), configuring the table, and the response (10_state.md R32). -/

namespace Sys2Proof.Machine

/-! ### Generator instances -/

/-- `KS[g]` (10_state.md R23). -/
def State.ks (s : State) : KsId → Word
  | .ks0 => s.ks0
  | .ks1 => s.ks1

/-- `SEEDED[g]` (10_state.md R26). -/
def State.seeded (s : State) : KsId → Bool
  | .ks0 => s.seeded0
  | .ks1 => s.seeded1

/-- `KS[g] <- v` (10_state.md R23). -/
def State.setKs (s : State) (g : KsId) (v : Word) : State :=
  match g with
  | .ks0 => { s with ks0 := v }
  | .ks1 => { s with ks1 := v }

/-- `SEEDED[g] <- 1` (10_state.md R26). -/
def State.setSeeded (s : State) (g : KsId) : State :=
  match g with
  | .ks0 => { s with seeded0 := true }
  | .ks1 => { s with seeded1 := true }

/-- Step instance `g` once (40_keystream.md R82); the keystream word is then that of the new state. -/
def State.stepKs (s : State) (g : KsId) : State := s.setKs g (lcg (s.ks g))

/-! ### Result registers -/

/-- `RES <- v` (10_state.md R27). -/
def State.setRes (s : State) (v : Word) : State := { s with res := v }

/-- `STOP`, `SCAUSE` and `TXT` written together by a lookup (10_state.md R28, R30). -/
def State.setLookup (s : State) (c : StopCause) (u : Option TextUnit) : State :=
  { s with stop := isStop c, scause := c, txt := u }

/-! ### Acceptance and rejection -/

/-- Acceptance of a command: `REJ <- 0`; `ERR` and `ECODE` stay (60_exceptions.md R162). -/
def State.accept (s : State) : State := { s with rej := false }

/-- `raise Reject(code)`: the block's one exception. It writes `REJ`, `ERR` and `ECODE` and nothing else; there is no
handler and nothing to return from (60_exceptions.md R161, R166). -/
def State.reject (s : State) (c : RejectCode) : State := { s with rej := true, err := true, ecode := some c }

/-- A command that steps instance `g` and returns a value made from its new keystream word: rejected with UNSEEDED and
not stepped while the instance is unseeded (40_keystream.md R82, 41_xor_decrypt.md R90). -/
def State.stepOrReject (s : State) (g : KsId) (value : Half → Half) : State :=
  if s.seeded g then
    ((s.stepKs g).setRes (zext32 (value (keystreamWord (lcg (s.ks g)))))).accept
  else s.reject .unseeded

/-! ### Reset and configuration -/

/-- Reset: every piece of state takes its value of 70_reset_and_hazards.md R180, whatever it held; configuration is
not reset. -/
def State.takeReset (s : State) : State := { State.reset with charTable := s.charTable, port := s.port }

/-- Configure the character table. Before the run's first command that is the boot step of 70_reset_and_hazards.md
R183; after it, no command may follow until the next reset (20_memory.md R45). Log 5; safe. -/
def State.loadTable (s : State) (table : List TextUnit) : Host.Outcome State Fault Refusal :=
  if table.length ≤ Config.maxTableLength then
    .next { s with charTable := table, phase := if s.phase = .fresh then .fresh else .reloaded }
  else .refused .tableTooLong

/-! ### The response -/

/-- What the block presents on its response port after a command (10_state.md R32). -/
structure Response where
  res : Word
  st  : Word
  txt : Option TextUnit
deriving DecidableEq, Repr

/-- The response of the command that led to this state (10_state.md R32). Log 14; safe. -/
def State.response (s : State) : Response := { res := s.res, st := s.st, txt := s.txt }

/-- `ST.STOP` of a response (10_state.md R29). -/
def Response.stopBit (r : Response) : Bool := r.st.getLsbD 0

/-- `ST.REJ` of a response (10_state.md R29). -/
def Response.rejBit (r : Response) : Bool := r.st.getLsbD 1

/-- `RES` as four bytes, least significant first (10_state.md R32). -/
def Response.resBytes (r : Response) : List Byte := bytesOf 4 r.res.toNat

/-- `ST` as four bytes, least significant first (10_state.md R32). -/
def Response.stBytes (r : Response) : List Byte := bytesOf 4 r.st.toNat

end Sys2Proof.Machine
end

