-- ==== Sys2Proof/Machine/CharMap.lean ====
section
/-! DEFINITION. The character-code mapper (43_charmap.md). -/

namespace Sys2Proof.Machine

/-- CM.LOOKUP: map a code to a text unit or Stop; a Stop is a result, not a rejection (43_charmap.md R110, R111). -/
def execCmLookup (code : Half) (s : State) : Host.Outcome State Fault Refusal :=
  .next (((s.setRes (zext32 code)).setLookup
    (stopCauseOf s.charTable.length code) (textUnitOf s.charTable code)).accept)

/-- CM.LEN: the table's length, 0 to 65536 (43_charmap.md R112). -/
def execCmLen (s : State) : Host.Outcome State Fault Refusal :=
  .next (s.setRes (BitVec.ofNat 32 s.charTable.length)).accept

end Sys2Proof.Machine
end

