-- ==== Sys2Proof/Machine/Control.lean ====
section
/-! DEFINITION. The control command (44_control.md). -/

namespace Sys2Proof.Machine

/-- NOP: nothing but acceptance (44_control.md R120). -/
def execNop (s : State) : Host.Outcome State Fault Refusal := .next s.accept

end Sys2Proof.Machine
end

