-- ==== Sys2Proof/Machine/Keystream.lean ====
section
/-! DEFINITION. The keystream generator commands (40_keystream.md). -/

namespace Sys2Proof.Machine

/-- KS.SEED: `KS[g] <- d`, `SEEDED[g] <- 1`, legal at any time (40_keystream.md R80). -/
def execKsSeed (g : KsId) (seed : Word) (s : State) : Host.Outcome State Fault Refusal :=
  .next ((s.setKs g seed).setSeeded g).accept

/-- KS.NEXT: step the instance and return its keystream word (40_keystream.md R82). -/
def execKsNext (g : KsId) (s : State) : Host.Outcome State Fault Refusal :=
  .next (s.stepOrReject g (fun k => k))

end Sys2Proof.Machine
end

