-- ==== Sys2Proof/Machine/Permutation.lean ====
section
/-! DEFINITION. The block permutation reverser (42_permutation.md). -/

namespace Sys2Proof.Machine

/-- PR.SELECT: the permutation index of a personality (42_permutation.md R104). -/
def execPrSelect (pv : Word) (s : State) : Host.Outcome State Fault Refusal :=
  .next (s.setRes (BitVec.ofNat 32 (sel pv).val)).accept

/-- PR.OFFSET: the plaintext-prefix offset of a block under a personality (42_permutation.md R105). -/
def execPrOffset (pv : Word) (blk : BlockId) (s : State) : Host.Outcome State Fault Refusal :=
  .next (s.setRes (blockOffset Config.permRom[sel pv] blk)).accept

/-- PR.ENTRY: one table entry; an index of 24 or more is rejected with INDEX_RANGE (42_permutation.md R106). -/
def execPrEntry (idx : BitVec 5) (s : State) : Host.Outcome State Fault Refusal :=
  .next (if h : idx.toNat < 24 then (s.setRes (zext32 Config.permRom[idx.toNat])).accept
    else s.reject .indexRange)

end Sys2Proof.Machine
end

