-- ==== Sys2Proof/Machine/XorDecrypt.lean ====
section
/-! DEFINITION. The XOR stream decryptor command (41_xor_decrypt.md). -/

namespace Sys2Proof.Machine

/-- XD.WORD: step the instance and return the operand XORed with its keystream word (41_xor_decrypt.md R90). -/
def execXdWord (g : KsId) (w : Half) (s : State) : Host.Outcome State Fault Refusal :=
  .next (s.stepOrReject g (fun k => w ^^^ k))

end Sys2Proof.Machine
end

