-- ==== Sys2Proof/Machine/Dispatch.lean ====
section
/-! DEFINITION. The dispatch of a decoded command to its meaning (30_encoding.md R67, last line). -/

namespace Sys2Proof.Machine

def exec (i : Instr) (s : State) : Host.Outcome State Fault Refusal :=
  match i with
  | .nop => Sys2Proof.Machine.execNop s
  | .ksSeed g seed => Sys2Proof.Machine.execKsSeed g seed s
  | .ksNext g => Sys2Proof.Machine.execKsNext g s
  | .xdWord g w => Sys2Proof.Machine.execXdWord g w s
  | .prSelect pv => Sys2Proof.Machine.execPrSelect pv s
  | .prOffset pv blk => Sys2Proof.Machine.execPrOffset pv blk s
  | .prEntry idx => Sys2Proof.Machine.execPrEntry idx s
  | .cmLookup code => Sys2Proof.Machine.execCmLookup code s
  | .cmLen => Sys2Proof.Machine.execCmLen s

end Sys2Proof.Machine
end

