-- ==== Sys2Proof/Machine/Port.lean ====
section
/-! DEFINITION. The command port: what the block does with the host's next action (30_encoding.md R67,
70_reset_and_hazards.md R181-R186), and runs of command words (48_host_sequences.md R151). -/

namespace Sys2Proof.Machine

/-- Take one command word: decode it, then run the command or reject the word (30_encoding.md R67). -/
def takeWord (cw : CommandWord) (s : State) : Host.Outcome State Fault Refusal :=
  match decode cw with
  | .instr i  => exec i s
  | .reject c => .next (s.reject c)

/-- A command word on the port. It is part of the run that the last reset began; after a change of the table during
the run it has no meaning (20_memory.md R45, 93_implementation_defined.md U8). -/
def takeCommand (cw : CommandWord) (s : State) : Host.Outcome State Fault Refusal :=
  match s.phase with
  | .fresh    => takeWord cw { s with phase := .running }
  | .running  => takeWord cw { s with phase := .running }
  | .reloaded => .refused .tableChangedDuringRun

/-- The block's answer to one action of the host (48_host_sequences.md R150). -/
def takeAction (a : HostAction) (s : State) : Host.Outcome State Fault Refusal :=
  match a with
  | .command cw     => takeCommand cw s
  | .reset          => .next s.takeReset
  | .loadTable t    => s.loadTable t
  | .commandEarly _ => .refused .commandBeforeResponse
  | .resetDuring _  => .refused .resetDuringCommand

/-- Take the next action from the port. With none there the block waits and nothing changes (70_reset_and_hazards.md
R182; DEDUCED, log 2; safe). -/
def portStep (s : State) : Host.Outcome State Fault Refusal :=
  match s.port with
  | []        => .next s
  | a :: rest => takeAction a { s with port := rest }

/-- Put an action in front of those the host has still to do. -/
def State.withAction (s : State) (a : HostAction) : State := { s with port := a :: s.port }

/-- Put a command word where the next step takes it, in a run that is not spoilt by a table change (log 15). -/
def State.withCommand (s : State) (cw : CommandWord) : State :=
  { s with port := .command cw :: s.port, phase := if s.phase = .reloaded then .fresh else s.phase }

/-- Run a list of commands one after another, stopping where one has no next state. -/
def execList : List Instr → State → Host.Outcome State Fault Refusal
  | [], s => .next s
  | i :: is, s =>
    match exec i s with
    | .next t    => execList is t
    | .fault r   => .fault r
    | .refused r => .refused r

end Sys2Proof.Machine
end

