-- ==== Sys2Proof/Machine/HostSequences.lean ====
section
/-! DEFINITION. The host's programs around the block: runs of command words (48_host_sequences.md R151), reads of the
save buffer (00_scope.md R9), the slot decode (48_host_sequences.md R131-R142) and the party decode (R143-R149). The
host is outside the block, so none of this is in the block's state; it acts on the block only by issuing command words
to `step` and reading responses. DESIGN CHOICE, log 11; safe. -/

namespace Sys2Proof.Machine

/-! ### Issuing commands -/

/-- The host issues one command word, ahead of whatever else waits on the port (48_host_sequences.md R130). -/
def issue (cw : CommandWord) (s : State) : Host.Outcome State Fault Refusal := step (s.withAction (.command cw))

/-- Issue words one after another, each after the previous response was read; the observation is the list of responses
and the final state (48_host_sequences.md R151). -/
def runWords : List CommandWord → State → Host.Outcome (List Response × State) Fault Refusal
  | [], s => .next ([], s)
  | cw :: cws, s =>
    match issue cw s with
    | .fault r   => .fault r
    | .refused r => .refused r
    | .next t    =>
      match runWords cws t with
      | .next (rs, u) => .next (t.response :: rs, u)
      | .fault r      => .fault r
      | .refused r    => .refused r

/-- Why a decode of the host fails (60_exceptions.md R164). -/
inductive HostFailure where
  /-- The length check of the party decode (48_host_sequences.md R144). -/
  | bufferTooShort
  /-- A slice outside the buffer: a fatal precondition violation (48_host_sequences.md R131; log 11). -/
  | sliceOutOfRange
  /-- A response with `ST.REJ = 1` during a decode: a failure of the slot (48_host_sequences.md R145). -/
  | commandRejected
  /-- The block answered no next state: the table was changed during the run (20_memory.md R45). -/
  | blockStopped
  /-- The host's schedule names a block the system does not have (log 13). -/
  | noSuchBlock
deriving DecidableEq, Repr

/-- Issue one command of a decode sequence and take its response: a rejection fails the slot (48_host_sequences.md
R145). -/
def issueOrFail (i : Instr) (s : State) : Except HostFailure State :=
  match issue (encode i) s with
  | .next t    => if t.response.rejBit then .error .commandRejected else .ok t
  | .fault _   => .error .blockStopped
  | .refused _ => .error .blockStopped

/-! ### The save buffer -/

/-- The host's save buffer, byte-addressed (20_memory.md R40). -/
abbrev SaveBuffer := List Byte

/-- The `n` bytes from `addr` on, or a failure where they are not all inside (48_host_sequences.md R131). -/
def memSlice (buf : SaveBuffer) (addr n : Nat) : Except HostFailure (List Byte) :=
  if addr + n ≤ buf.length then .ok ((buf.drop addr).take n) else .error .sliceOutOfRange

/-- `MemRead(addr, n)`: the little-endian value of `n` bytes (00_scope.md R9). -/
def memRead (buf : SaveBuffer) (addr n : Nat) : Except HostFailure Nat := do
  let bs ← memSlice buf addr n
  return littleEndian bs

/-- A 16-bit read (20_memory.md R46). -/
def memRead16 (buf : SaveBuffer) (addr : Nat) : Except HostFailure Half := do
  let v ← memRead buf addr 2
  return BitVec.ofNat 16 v

/-- A 32-bit read (20_memory.md R46). -/
def memRead32 (buf : SaveBuffer) (addr : Nat) : Except HostFailure Word := do
  let v ← memRead buf addr 4
  return BitVec.ofNat 32 v

/-- The `n` little-endian 16-bit words from `addr` on, in ascending order (48_host_sequences.md R133, R136, R140). -/
def readHalves (buf : SaveBuffer) (addr : Nat) : Nat → Except HostFailure (List Half)
  | 0 => return []
  | n + 1 => do
    let w ← memRead16 buf addr
    let ws ← readHalves buf (addr + 2) n
    return w :: ws

/-- Size of a slot in bytes (20_memory.md R50). -/
def slotSize : Nat := 236

/-- The least legal length of a save buffer (20_memory.md R54). -/
def leastBufferLength (partyOffset : Nat) : Nat := partyOffset + 6 * slotSize

/-! ### The slot decode -/

/-- The six effort values (48_host_sequences.md R138). -/
structure EffortValues where
  hp  : Byte
  atk : Byte
  dfn : Byte
  spa : Byte
  spd : Byte
  spe : Byte
deriving DecidableEq, Repr

/-- The record of a slot (48_host_sequences.md R139). -/
structure Record where
  name   : List TextUnit
  level  : Byte
  effort : EffortValues
deriving DecidableEq, Repr

/-- One XD.WORD per word, in ascending order (48_host_sequences.md R133, 70_reset_and_hazards.md R188). -/
def decryptWords (g : KsId) : List Half → State → Except HostFailure (List Half × State)
  | [], s => return ([], s)
  | w :: ws, s => do
    let t ← issueOrFail (.xdWord g w) s
    let (rs, u) ← decryptWords g ws t
    return (t.response.res.setWidth 16 :: rs, u)

/-- Seed an instance and decrypt a list of words with its stream (48_host_sequences.md R133, R141). -/
def decryptStream (g : KsId) (seed : Word) (ws : List Half) (s : State) :
    Except HostFailure (List Half × State) := do
  let t ← issueOrFail (.ksSeed g seed) s
  decryptWords g ws t

/-- The bytes of decrypted words, the low byte of each first (48_host_sequences.md R133). -/
def bytesOfHalves (ws : List Half) : List Byte := ws.flatMap (fun w => bytesOf 2 w.toNat)

/-- The offset of a block in the plaintext prefix, from PR.OFFSET (48_host_sequences.md R135). -/
def issueOffset (pv : Word) (blk : BlockId) (s : State) : Except HostFailure (Nat × State) := do
  let t ← issueOrFail (.prOffset pv blk) s
  return (t.response.res.toNat, t)

/-- The name scan, which stops at the first Stop (48_host_sequences.md R137). -/
def nameScan : List Half → State → Except HostFailure (List TextUnit × State)
  | [], s => return ([], s)
  | c :: cs, s => do
    let t ← issueOrFail (.cmLookup c) s
    if t.response.stopBit then return ([], t)
    else
      let (us, u) ← nameScan cs t
      return (t.response.txt.toList ++ us, u)

/-- The level: the low byte of the last decrypted word of the battle-stat region (48_host_sequences.md R141). -/
def lastLowByte (ws : List Half) : Except HostFailure Byte :=
  match ws.getLast? with
  | some w => .ok (w.extractLsb' 0 8)
  | none   => .error .sliceOutOfRange

/-- One byte of a block (00_scope.md R9). -/
def memByte (buf : SaveBuffer) (addr : Nat) : Except HostFailure Byte := do
  let v ← memRead buf addr 1
  return BitVec.ofNat 8 v

/-- The effort values of block A (48_host_sequences.md R138). -/
def readEffort (blockA : List Byte) : Except HostFailure EffortValues := do
  return { hp  := ← memByte blockA 0x10
           atk := ← memByte blockA 0x11
           dfn := ← memByte blockA 0x12
           spa := ← memByte blockA 0x13
           spd := ← memByte blockA 0x14
           spe := ← memByte blockA 0x15 }

/-- Decode the 236 bytes of one slot (48_host_sequences.md R132-R141, in their order). -/
def decodeSlotBytes (slot : List Byte) (s : State) : Except HostFailure (Record × State) := do
  let pv ← memRead32 slot 0x00
  let chk ← memRead16 slot 0x06
  let cipher ← readHalves slot 0x08 64
  let (plain, s) ← decryptStream .ks0 (zext32 chk) cipher s
  let header ← memSlice slot 0 8
  let prefixP := header ++ bytesOfHalves plain
  let (offA, s) ← issueOffset pv .a s
  let (offC, s) ← issueOffset pv .c s
  let blockA ← memSlice prefixP offA 32
  let blockC ← memSlice prefixP offC 32
  let codes ← readHalves blockC 0 11
  let (name, s) ← nameScan codes s
  let battle ← readHalves slot 0x88 3
  let (stats, s) ← decryptStream .ks1 pv battle s
  let level ← lastLowByte stats
  let effort ← readEffort blockA
  return ({ name := name, level := level, effort := effort }, s)

/-- `DECODE_SLOT(s0)` (48_host_sequences.md R131). -/
def decodeSlot (buf : SaveBuffer) (s0 : Nat) (s : State) : Except HostFailure (Record × State) := do
  let slot ← memSlice buf s0 slotSize
  decodeSlotBytes slot s

/-! ### The party decode -/

/-- The slots from `i` on, `n` of them, in order (48_host_sequences.md R143). -/
def decodeSlots (buf : SaveBuffer) (partyOffset : Nat) : (n i : Nat) → State →
    Except HostFailure (List Record × State)
  | 0, _, s => return ([], s)
  | n + 1, i, s => do
    let (r, t) ← decodeSlot buf (partyOffset + i * slotSize) s
    let (rs, u) ← decodeSlots buf partyOffset n (i + 1) t
    return (r :: rs, u)

/-- `DECODE_PARTY(buffer, party_offset)`: the length is checked before any slot is read (48_host_sequences.md R143,
R144). -/
def decodeParty (buf : SaveBuffer) (partyOffset : Nat) (s : State) : Except HostFailure (List Record × State) :=
  if buf.length < leastBufferLength partyOffset then .error .bufferTooShort
  else decodeSlots buf partyOffset 6 0 s

/-- The party decode at the configured offset (00_scope.md R6). -/
def decodePartyConfigured (buf : SaveBuffer) (s : State) : Except HostFailure (List Record × State) :=
  decodeParty buf Config.partyOffset s

end Sys2Proof.Machine
end

