-- ==== Sys2Proof/Machine/Assembler.lean ====
section
/-! DEFINITION. The assembler: a line of text to a command or pseudo-instruction (30_encoding.md R70), and those to
command words (R71, R62). Spacing and letter case are DESIGN CHOICES, log 12; safe. -/

namespace Sys2Proof.Machine

/-! ### Instructions to commands -/

/-- The instance a number 0 or 1 names (30_encoding.md R64). -/
def asmKs (g : Nat) : KsId := KsId.ofBit (BitVec.ofNat 1 g)

/-- The commands of an assembler instruction whose operands fit their fields; a pseudo-instruction is expanded
(30_encoding.md R71). -/
def expandAsm : AsmInstr → List Instr
  | .nop             => [.nop]
  | .ksSeed g seed   => [.ksSeed (asmKs g) (BitVec.ofNat 32 seed)]
  | .ksNext g        => [.ksNext (asmKs g)]
  | .xdWord g w      => [.xdWord (asmKs g) (BitVec.ofNat 16 w)]
  | .prSelect pv     => [.prSelect (BitVec.ofNat 32 pv)]
  | .prOffset pv blk => [.prOffset (BitVec.ofNat 32 pv) (BlockId.ofBits (BitVec.ofNat 2 blk))]
  | .prEntry idx     => [.prEntry (BitVec.ofNat 5 idx)]
  | .cmLookup code   => [.cmLookup (BitVec.ofNat 16 code)]
  | .cmLen           => [.cmLen]
  | .ksSeedChk chk   => [.ksSeed .ks0 (zext32 (BitVec.ofNat 16 chk))]
  | .ksSeedPv pv     => [.ksSeed .ks1 (BitVec.ofNat 32 pv)]
  | .ksSkip g n      => List.replicate n (.ksNext (asmKs g))

/-- The command words of an assembler instruction, or none: an operand that does not fit its field is an assembly
error (30_encoding.md R70). -/
def assemble (a : AsmInstr) : Option (List CommandWord) :=
  if a.wellFormed then some ((expandAsm a).map encode) else none

/-! ### Text -/

/-- The mnemonic of each command (30_encoding.md R65). -/
def opcodeMnemonic : Opcode → String
  | .nop      => "NOP"
  | .ksSeed   => "KS.SEED"
  | .ksNext   => "KS.NEXT"
  | .xdWord   => "XD.WORD"
  | .prSelect => "PR.SELECT"
  | .prOffset => "PR.OFFSET"
  | .prEntry  => "PR.ENTRY"
  | .cmLookup => "CM.LOOKUP"
  | .cmLen    => "CM.LEN"

/-- A blank of a line. -/
def isBlank (c : Char) : Bool := c == ' ' || c == '\t'

/-- A text without the blanks at its two ends. -/
def trim (cs : List Char) : List Char := ((cs.dropWhile isBlank).reverse.dropWhile isBlank).reverse

/-- The part of a line before a comment (30_encoding.md R70: a semicolon starts one). -/
def withoutComment (cs : List Char) : List Char := cs.takeWhile (fun c => c != ';')

/-- The pieces of a text between its commas. -/
def splitCommas : List Char → List (List Char)
  | [] => [[]]
  | c :: cs =>
    match splitCommas cs with
    | [] => [[c]]
    | p :: ps => if c == ',' then [] :: p :: ps else (c :: p) :: ps

/-- The value of a digit in a base up to 16. -/
def digitValue (base : Nat) (c : Char) : Option Nat :=
  let n := c.toNat
  let v := if 48 ≤ n && n ≤ 57 then n - 48
    else if 65 ≤ n && n ≤ 70 then n - 55
    else if 97 ≤ n && n ≤ 102 then n - 87
    else 16
  if v < base then some v else none

/-- The number a list of digits writes, on top of the digits read so far. -/
def digitsValue (base : Nat) : Nat → List Char → Option Nat
  | acc, [] => some acc
  | acc, c :: cs =>
    match digitValue base c with
    | some d => digitsValue base (acc * base + d) cs
    | none   => none

/-- A number, decimal or `0x` hexadecimal (30_encoding.md R70). -/
def parseNumber : List Char → Option Nat
  | [] => none
  | '0' :: 'x' :: c :: cs => digitsValue 16 0 (c :: cs)
  | c :: cs => digitsValue 10 0 (c :: cs)

/-- A block id: `A`, `B`, `C`, `D` or a number (30_encoding.md R70). -/
def parseBlock : List Char → Option Nat
  | ['A'] => some 0
  | ['B'] => some 1
  | ['C'] => some 2
  | ['D'] => some 3
  | cs    => parseNumber cs

/-- The operands of a line: the pieces between commas, or none at all. -/
def operandTexts (cs : List Char) : List (List Char) :=
  match trim cs with
  | [] => []
  | t  => (splitCommas t).map trim

/-- The instruction a mnemonic and its operand texts write (30_encoding.md R70, R71). -/
def parseInstr (mnemonic : String) (ops : List (List Char)) : Option AsmInstr :=
  match ops with
  | [] =>
    if mnemonic = "NOP" then some .nop
    else if mnemonic = "CM.LEN" then some .cmLen
    else none
  | [x] =>
    if mnemonic = "KS.NEXT" then (parseNumber x).map .ksNext
    else if mnemonic = "PR.SELECT" then (parseNumber x).map .prSelect
    else if mnemonic = "PR.ENTRY" then (parseNumber x).map .prEntry
    else if mnemonic = "CM.LOOKUP" then (parseNumber x).map .cmLookup
    else if mnemonic = "KS.SEEDCHK" then (parseNumber x).map .ksSeedChk
    else if mnemonic = "KS.SEEDPV" then (parseNumber x).map .ksSeedPv
    else none
  | [x, y] =>
    if mnemonic = "KS.SEED" then (parseNumber x).bind fun g => (parseNumber y).map (.ksSeed g)
    else if mnemonic = "XD.WORD" then (parseNumber x).bind fun g => (parseNumber y).map (.xdWord g)
    else if mnemonic = "PR.OFFSET" then (parseNumber x).bind fun pv => (parseBlock y).map (.prOffset pv)
    else if mnemonic = "KS.SKIP" then (parseNumber x).bind fun g => (parseNumber y).map (.ksSkip g)
    else none
  | _ => none

/-- What a line of assembler text is. -/
inductive AsmLine where
  /-- Blank, or a comment only: no command word. 30_encoding.md R70 does not speak of such lines. DESIGN CHOICE, log 12;
  safe. -/
  | empty
  /-- The command words the line assembles to. -/
  | words (ws : List CommandWord)
  /-- An assembly error (30_encoding.md R70). -/
  | error
deriving DecidableEq, Repr

/-- Assemble one line (30_encoding.md R70). A line that is blank or holds only a comment is accepted and gives no word,
which R70 leaves open. DESIGN CHOICE, log 12; safe. -/
def assembleLine (line : String) : AsmLine :=
  match trim (withoutComment line.toList) with
  | [] => .empty
  | t  =>
    let mnemonic := t.takeWhile (fun c => !isBlank c)
    match (parseInstr (String.ofList mnemonic) (operandTexts (t.drop mnemonic.length))).bind assemble with
    | some ws => .words ws
    | none    => .error

/-- Assemble a program, one command per line (30_encoding.md R70); none if a line is in error. Empty lines add nothing
(DESIGN CHOICE, log 12). -/
def assembleProgram : List String → Option (List CommandWord)
  | [] => some []
  | line :: lines =>
    match assembleLine line, assembleProgram lines with
    | .empty, some rest    => some rest
    | .words ws, some rest => some (ws ++ rest)
    | _, _                 => none

end Sys2Proof.Machine
end

