-- ==== Sys2Proof/Machine/System.lean ====
section
/-! DEFINITION. A system of several blocks (60_exceptions.md R171): each has its own state and its own command port,
none has an identifier or a signal to another, and they share only read-only tables. Log 13; safe. -/

namespace Sys2Proof.Machine

/-- A system: its blocks, told apart only by where they stand in the host's list. -/
abbrev System := List State

/-- One block of the system takes its next host action; the others do not move. A place that holds no block leaves
the system as it is. -/
def stepBlock (sys : System) (n : Nat) : Host.Outcome System Fault Refusal :=
  match sys[n]? with
  | none   => .next sys
  | some s =>
    match step s with
    | .next t    => .next (sys.set n t)
    | .fault r   => .fault r
    | .refused r => .refused r

/-- The blocks share one character table (60_exceptions.md R171). -/
def shareTable (table : List TextUnit) (sys : System) : Prop := ∀ s ∈ sys, s.charTable = table

/-- Decode slots in the order of a schedule, each entry naming a slot and the block that decodes it
(48_host_sequences.md R148, R150: slots in any order, on separate blocks or one after another on one). The records
stand in the schedule's order. -/
def decodeScheduled (buf : SaveBuffer) (partyOffset : Nat) : List (Fin 6 × Nat) → System →
    Except HostFailure (List Record × System)
  | [], sys => return ([], sys)
  | (slot, n) :: rest, sys =>
    match sys[n]? with
    | none   => .error .noSuchBlock
    | some s => do
      let (r, t) ← decodeSlot buf (partyOffset + slot.val * slotSize) s
      let (rs, sys') ← decodeScheduled buf partyOffset rest (sys.set n t)
      return (r :: rs, sys')

/-- A party decode by a schedule: the buffer length is checked before any slot is read (48_host_sequences.md R144,
R150). -/
def decodePartyScheduled (buf : SaveBuffer) (partyOffset : Nat) (schedule : List (Fin 6 × Nat)) (sys : System) :
    Except HostFailure (List Record × System) :=
  if buf.length < leastBufferLength partyOffset then .error .bufferTooShort
  else decodeScheduled buf partyOffset schedule sys

/-- The party decode with a block of its own for each slot (48_host_sequences.md R148). -/
def decodePartyApart (buf : SaveBuffer) (partyOffset : Nat) (sys : System) :
    Except HostFailure (List Record × System) :=
  decodePartyScheduled buf partyOffset [(0, 0), (1, 1), (2, 2), (3, 3), (4, 4), (5, 5)] sys

end Sys2Proof.Machine
end

