-- ==== Sys2Proof/Machine/TextUnits.lean ====
section
/-! DEFINITION. The block over the system's own text units, which may be of any type (00_scope.md R6, 92_eei_decisions.md
D17): the type and a reading of the block's names in it are arguments here. Log 3; safe. -/

namespace Sys2Proof.Machine

/-! ### Registers, responses and records in the system's own units -/

/-- `CT` in the system's own units (10_state.md R34). -/
def State.tableAs {T : Type} (value : UnitReading T) (s : State) : List T := s.charTable.map value

/-- `TXT` in the system's own units (10_state.md R28). -/
def State.txtAs {T : Type} (value : UnitReading T) (s : State) : Option T := s.txt.map value

/-- `TXT` of a response in the system's own units (10_state.md R32). -/
def Response.txtAs {T : Type} (value : UnitReading T) (r : Response) : Option T := r.txt.map value

/-- The name of a record in the system's own units (48_host_sequences.md R139). -/
def Record.nameAs {T : Type} (value : UnitReading T) (r : Record) : List T := r.name.map value

/-- The string form of a name, where the system's units are strings: the units in order (48_host_sequences.md R139). -/
def Record.nameString (value : UnitReading String) (r : Record) : String := String.join (r.nameAs value)

/-! ### Configuring a table of any units -/

/-- Names for the units of a table: each unit is named by its place (00_scope.md R6). -/
def unitNames {T : Type} (table : List T) : List TextUnit := (List.range table.length).map TextUnit.mk

/-- The reading that goes with `unitNames`: the unit at the named place, if the table has one. -/
def unitsOf {T : Type} (table : List T) : UnitReading (Option T) := fun u => table[u.name]?

/-! ### Renaming -/

/-- A host action with every text unit renamed. -/
def HostAction.renameUnits (f : TextUnit → TextUnit) : HostAction → HostAction
  | .command cw      => .command cw
  | .reset           => .reset
  | .loadTable table => .loadTable (table.map f)
  | .commandEarly cw => .commandEarly cw
  | .resetDuring cw  => .resetDuring cw

/-- A state with every text unit renamed. -/
def State.renameUnits (f : TextUnit → TextUnit) (s : State) : State :=
  { s with
    txt := s.txt.map f
    charTable := s.charTable.map f
    port := s.port.map (HostAction.renameUnits f) }

end Sys2Proof.Machine
end

