-- ==== Sys2Proof/Safety.lean ====
section
/-! DEFINITION. The terms claims are stated in: the invariant of the block's state, the host keeping its duties
(48_host_sequences.md R150), and plain readings of the spec that the machine is compared with. -/

namespace Sys2Proof.Machine

/-- The registers a command can show are at their reset values (70_reset_and_hazards.md R180). `KS` is left out: no
command can read it before a seed. -/
def State.atResetValues (s : State) : Prop :=
  s.seeded0 = false ∧ s.seeded1 = false ∧ s.res = 0 ∧ s.txt = none ∧ s.stop = false ∧ s.rej = false ∧
    s.err = false ∧ s.ecode = none ∧ s.scause = .ok

/-- The invariant of the block: relations between its registers that every step keeps. -/
structure State.Inv (s : State) : Prop where
  /-- `STOP` is 1 exactly when `SCAUSE` is not OK (10_state.md R30). -/
  stop_eq : s.stop = isStop s.scause
  /-- A Stop leaves no text unit (43_charmap.md R110). -/
  txt_of_stop : s.stop = true → s.txt = none
  /-- A rejected latest command means that a command has been rejected since reset (10_state.md R29). -/
  err_of_rej : s.rej = true → s.err = true
  /-- `ECODE` is nonzero exactly when `ERR` is 1 (10_state.md R31). -/
  err_eq : s.err = s.ecode.isSome
  /-- No result is greater than the greatest table length, 0x10000 (43_charmap.md R112 and the other results). -/
  res_le : s.res.toNat ≤ 0x10000
  /-- 0 ≤ L ≤ 65536 (00_scope.md R6). -/
  table_le : s.charTable.length ≤ Config.maxTableLength
  /-- Until the first command every visible register is at its reset value. -/
  fresh_reset : s.phase = .fresh → s.atResetValues
  /-- During a run `TXT` is an entry of the table, at a code other than 0x0000 and 0xFFFF (20_memory.md R44). -/
  txt_mem : s.phase = .running → ∀ u, s.txt = some u →
    ∃ n, 0 < n ∧ n < 0xFFFF ∧ s.charTable[n]? = some u

/-- The host keeps the duties whose breach has no meaning in the spec: no word before the previous response, no reset
while a command is taken, no table change between the first command of a run and the next reset, no table over the
greatest length (48_host_sequences.md R150, 70_reset_and_hazards.md R186, R191). The duty to seed is `seedsFirst`. -/
def hostObeys : RunPhase → List HostAction → Bool
  | _, [] => true
  | .reloaded, .command _ :: _ => false
  | .fresh, .command _ :: rest => hostObeys .running rest
  | .running, .command _ :: rest => hostObeys .running rest
  | _, .reset :: rest => hostObeys .fresh rest
  | .fresh, .loadTable t :: rest => decide (t.length ≤ Config.maxTableLength) && hostObeys .fresh rest
  | .running, .loadTable t :: rest => decide (t.length ≤ Config.maxTableLength) && hostObeys .reloaded rest
  | .reloaded, .loadTable t :: rest => decide (t.length ≤ Config.maxTableLength) && hostObeys .reloaded rest
  | _, .commandEarly _ :: _ => false
  | _, .resetDuring _ :: _ => false

/-- From this state on the host keeps the duties whose breach has no meaning. -/
def State.hostObeys (s : State) : Bool := Machine.hostObeys s.phase s.port

/-! ### Commands and the instances they name -/

/-- The generator instance a command names, if any (30_encoding.md R61). -/
def namedKs : Instr → Option KsId
  | .ksSeed g _ => some g
  | .ksNext g   => some g
  | .xdWord g _ => some g
  | .nop | .prSelect _ | .prOffset _ _ | .prEntry _ | .cmLookup _ | .cmLen => none

/-- The state with instance `g` holding that state and that `SEEDED` bit. -/
def State.withGen (s : State) (g : KsId) (v : Word) (b : Bool) : State :=
  match g with
  | .ks0 => { s with ks0 := v, seeded0 := b }
  | .ks1 => { s with ks1 := v, seeded1 := b }

/-- The word is a KS.SEED naming instance `g`. -/
def seedsKs (g : KsId) (cw : CommandWord) : Bool :=
  match decode cw with
  | .instr (.ksSeed h _) => decide (h = g)
  | _ => false

/-- The word is a command that steps instance `g`: KS.NEXT or XD.WORD naming it (40_keystream.md R81). -/
def stepsKs (g : KsId) (cw : CommandWord) : Bool :=
  match decode cw with
  | .instr (.ksNext h)   => decide (h = g)
  | .instr (.xdWord h _) => decide (h = g)
  | _ => false

/-! ### The duty to seed -/

/-- The host seeds an instance before it steps it, the instances being seeded or not as given at the start
(48_host_sequences.md R150, 70_reset_and_hazards.md R184). A reset takes both seeds away (R181). -/
def seedsFirst : (seeded0 seeded1 : Bool) → List HostAction → Bool
  | _, _, [] => true
  | b0, b1, .command cw :: rest =>
    (!stepsKs .ks0 cw || b0) && (!stepsKs .ks1 cw || b1) &&
      seedsFirst (b0 || seedsKs .ks0 cw) (b1 || seedsKs .ks1 cw) rest
  | _, _, .reset :: rest => seedsFirst false false rest
  | b0, b1, .loadTable _ :: rest => seedsFirst b0 b1 rest
  | b0, b1, .commandEarly _ :: rest => seedsFirst b0 b1 rest
  | b0, b1, .resetDuring _ :: rest => seedsFirst b0 b1 rest

/-- From this state on the host keeps every duty of 48_host_sequences.md R150 towards the block. -/
def State.hostKeepsDuties (s : State) : Bool := s.hostObeys && seedsFirst s.seeded0 s.seeded1 s.port

/-! ### Rejections as 60_exceptions.md R163 lists them -/

/-- The nine legal values of `OP` (30_encoding.md R65). -/
def legalOps : List (Byte × Opcode) :=
  [(0x00, .nop), (0x01, .ksSeed), (0x02, .ksNext), (0x03, .xdWord), (0x10, .prSelect), (0x11, .prOffset),
   (0x12, .prEntry), (0x20, .cmLookup), (0x21, .cmLen)]

/-- The cause a word is rejected for in a state, the first in the order of 60_exceptions.md R167; none if the command
is accepted. -/
def rejectionCause (s : State) (cw : CommandWord) : Option RejectCode :=
  let op := cw.extractLsb' 0 8
  match legalOps.lookup op with
  | none => some .illegalOpcode
  | some o =>
    if (C64.ofWord cw).unusedZero o = false then some .reservedField
    else if (op = 0x02 ∨ op = 0x03) ∧ (if cw.getLsbD 8 then s.seeded1 else s.seeded0) = false then some .unseeded
    else if op = 0x12 ∧ 24 ≤ (cw.extractLsb' 16 5).toNat then some .indexRange
    else none

/-! ### The slot decode, byte by byte -/

/-- Byte `j` of a slot. -/
def slotByte (slot : List Byte) (j : Nat) : Byte := slot.getD j 0

/-- The personality of a slot, bytes 0x00-0x03 (20_memory.md R50). -/
def slotPv (slot : List Byte) : Word := slotByte slot 3 ++ slotByte slot 2 ++ slotByte slot 1 ++ slotByte slot 0

/-- The checksum of a slot, bytes 0x06-0x07 (20_memory.md R50). -/
def slotChecksum (slot : List Byte) : Half := slotByte slot 7 ++ slotByte slot 6

/-- Byte `k` of the decrypted region of a slot: the cipher byte XOR the byte of its word's keystream word
(20_memory.md R52, 41_xor_decrypt.md R92). -/
def plainByte (slot : List Byte) (k : Nat) : Byte :=
  slotByte slot (8 + k) ^^^ (keystream (k / 2 + 1) (zext32 (slotChecksum slot))).extractLsb' (8 * (k % 2)) 8

/-- Byte `j` of a canonical block of a slot, at its original position (20_memory.md R52). -/
def blockByte (slot : List Byte) (blk : BlockId) (j : Nat) : Byte :=
  plainByte slot (32 * (pos Config.permRom[sel (slotPv slot)] blk).toNat + j)

/-- The 11 character codes of a slot's name (48_host_sequences.md R136). -/
def nameCodes (slot : List Byte) : List Half :=
  (List.range 11).map fun j => blockByte slot .c (2 * j + 1) ++ blockByte slot .c (2 * j)

/-- A code that does not stop a name (43_charmap.md R110). -/
def codeRuns {T : Type} (table : List T) (code : Half) : Bool :=
  decide (code ≠ 0xFFFF) && decide (code ≠ 0) && decide (code.toNat < table.length)

/-- The name that codes spell: the text units of those before the first Stop (48_host_sequences.md R137). -/
def nameOf {T : Type} (table : List T) (codes : List Half) : List T :=
  (codes.takeWhile (codeRuns table)).filterMap fun c => table[c.toNat]?

end Sys2Proof.Machine
end

