-- ==== Sys2Proof/Certificates/Slice0/Obligations.lean ====
section
/-! DEFINITION. The statements for the provers. A statement about a command gives its decoding for every word with its
`OP`, then the exact next state of `exec` (everything not named in it is unchanged, so it is the command's frame too),
then the spec's example. -/

open Sys2Proof Sys2Proof.Machine

/-! ### Reset, status, steps -/

/-- 70_reset_and_hazards.md R180: every register at its reset value, and `ST` reads 0. The values of the model's own
`phase` and `port` are log 6 and log 1. -/
def Obligations.ResetRegisterValues : Prop :=
  State.reset.ks0 = 0 ∧ State.reset.ks1 = 0 ∧ State.reset.seeded0 = false ∧ State.reset.seeded1 = false ∧
    State.reset.res = 0 ∧ State.reset.txt = none ∧ State.reset.stop = false ∧ State.reset.rej = false ∧
    State.reset.err = false ∧ State.reset.ecode = none ∧ State.reset.scause = .ok ∧ State.reset.st = 0

/-- 70_reset_and_hazards.md R181: reset sets every piece of state whatever it held, leaves the table, and is the only
event that clears `ERR` and `SEEDED`. The last clause is the model's reading (log 7): R181 puts a reset that arrives
while a command is taken outside the spec, and the model refuses it. -/
def Obligations.OnlyResetClearsErrAndSeeded : Prop :=
  (∀ (s : State) (rest : List HostAction), s.port = .reset :: rest →
    ∃ t, step s = .next t ∧ t.atResetValues ∧ t.ks0 = 0 ∧ t.ks1 = 0 ∧ t.st = 0 ∧ t.charTable = s.charTable ∧
      t.port = rest) ∧
  (∀ s t : State, step s = .next t → (∀ rest, s.port ≠ .reset :: rest) →
    (s.err = true → t.err = true) ∧ (s.seeded0 = true → t.seeded0 = true) ∧
      (s.seeded1 = true → t.seeded1 = true)) ∧
  (∀ (s : State) (cw : CommandWord) (rest : List HostAction), s.port = .resetDuring cw :: rest →
    step s = .refused .resetDuringCommand)

/-- 10_state.md R29, R30, R31: where each field of `ST` stands, with its numbers, and the reserved bits read 0. -/
def Obligations.StatusWordLayout : Prop :=
  ∀ s : State,
    s.st.getLsbD 0 = s.stop ∧ s.st.getLsbD 1 = s.rej ∧ s.st.getLsbD 2 = s.err ∧ s.st.getLsbD 3 = false ∧
    (s.st.extractLsb' 4 4).toNat =
      (match s.ecode with
        | none => 0
        | some .illegalOpcode => 1
        | some .reservedField => 2
        | some .unseeded => 3
        | some .indexRange => 4) ∧
    s.st.getLsbD 8 = s.seeded0 ∧ s.st.getLsbD 9 = s.seeded1 ∧
    (s.st.extractLsb' 10 2).toNat =
      (match s.scause with
        | .ok => 0
        | .endOfString => 1
        | .null => 2
        | .range => 3) ∧
    s.st.extractLsb' 12 20 = 0

/-- 30_encoding.md R67, last line: the step takes the word at the head of the port and runs the command it decodes
to, with the word taken off the port and the run begun (the model's own fields, log 1 and log 6). -/
def Obligations.StepRunsDecodedCommand : Prop :=
  ∀ (s : State) (cw : CommandWord) (rest : List HostAction) (i : Instr),
    s.port = .command cw :: rest → s.phase ≠ .reloaded → decode cw = .instr i →
      step s = exec i { s with port := rest, phase := .running }

/-- The model's choices of log 2, log 5 and log 7: with an empty port the block waits; what the spec puts outside
itself is refused by name (93_implementation_defined.md U8, U9, U10; 00_scope.md R6). -/
def Obligations.WaitsAndRefusesMisuse : Prop :=
  (∀ s : State, s.port = [] → step s = .next s) ∧
  (∀ (s : State) (cw : CommandWord) (rest : List HostAction), s.port = .commandEarly cw :: rest →
    step s = .refused .commandBeforeResponse) ∧
  (∀ (s : State) (cw : CommandWord) (rest : List HostAction), s.port = .resetDuring cw :: rest →
    step s = .refused .resetDuringCommand) ∧
  (∀ (s : State) (cw : CommandWord) (rest : List HostAction), s.port = .command cw :: rest →
    s.phase = .reloaded → step s = .refused .tableChangedDuringRun) ∧
  (∀ (s : State) (table : List TextUnit) (rest : List HostAction), s.port = .loadTable table :: rest →
    step s = if 65536 < table.length then .refused .tableTooLong
      else .next { s with port := rest, charTable := table,
                          phase := if s.phase = .fresh then .fresh else .reloaded })

/-- 60_exceptions.md R161, R162, R163, R167: a command word is rejected exactly for the first cause that applies, with
only `REJ`, `ERR` and `ECODE` written; an accepted one clears `REJ` and keeps `ERR` and `ECODE`. -/
def Obligations.CommandAcceptedOrRejected : Prop :=
  ∀ (s : State) (cw : CommandWord) (rest : List HostAction),
    s.port = .command cw :: rest → s.phase ≠ .reloaded →
      ∃ t, step s = .next t ∧
        (∀ c, rejectionCause s cw = some c →
          t = { s with port := rest, phase := .running, rej := true, err := true, ecode := some c }) ∧
        (rejectionCause s cw = none → t.rej = false ∧ t.err = s.err ∧ t.ecode = s.ecode)

/-! ### Encoding -/

/-- Words written out from 30_encoding.md R62, R66 and the examples of 95_test_vectors.md decode to their commands. -/
def Obligations.SampleWordsDecode : Prop :=
  decode 0x0000000000000000 = .instr .nop ∧
  decode 0x0000123400000001 = .instr (.ksSeed .ks0 0x00001234) ∧
  decode 0x0000000000000102 = .instr (.ksNext .ks1) ∧
  decode 0x0000000052430103 = .instr (.xdWord .ks1 0x5243) ∧
  decode 0x0000600000000010 = .instr (.prSelect 0x00006000) ∧
  decode 0x0000600000020011 = .instr (.prOffset 0x00006000 .c) ∧
  decode 0x0000000000170012 = .instr (.prEntry 23) ∧
  decode 0x00000000FFFF0020 = .instr (.cmLookup 0xFFFF) ∧
  decode 0x0000000000000021 = .instr .cmLen ∧
  decode 0xFFFFFFFFFFFFFF05 = .reject .illegalOpcode ∧
  decode 0x0000000100000002 = .reject .reservedField

/-- Decoding the word of any command gives that command with every operand (30_encoding.md R62, R63, R66, R67). -/
def Obligations.DecodeOfEncode : Prop :=
  ∀ i : Instr, decode (encode i) = .instr i

/-- Each accepted word is the one word of its command: no bit of it is ignored (30_encoding.md R69). -/
def Obligations.EncodeOfDecode : Prop :=
  ∀ (cw : CommandWord) (i : Instr), decode cw = .instr i → encode i = cw

/-- 30_encoding.md R67, R68, R69: an `OP` that is none of the nine is ILLEGAL_OPCODE whatever the other bits; a legal
one with a must-be-zero bit set is RESERVED_FIELD; every other word is that opcode's command. -/
def Obligations.DecodeRejectsBadWords : Prop :=
  ∀ cw : CommandWord,
    (legalOps.lookup (cw.extractLsb' 0 8) = none → decode cw = .reject .illegalOpcode) ∧
    (∀ o, legalOps.lookup (cw.extractLsb' 0 8) = some o → (C64.ofWord cw).unusedZero o = false →
      decode cw = .reject .reservedField) ∧
    (∀ o, legalOps.lookup (cw.extractLsb' 0 8) = some o → (C64.ofWord cw).unusedZero o = true →
      ∃ i, i.opcode = o ∧ decode cw = .instr i)

/-- 30_encoding.md R66: the match and mask of a row say what R65's columns say, and no two rows match one word. -/
def Obligations.MaskRowsAgreeWithFields : Prop :=
  (∀ (o : Opcode) (cw : CommandWord),
    cw &&& o.mask = o.pattern ↔ cw.extractLsb' 0 8 = o.code ∧ (C64.ofWord cw).unusedZero o = true) ∧
  (∀ (o o' : Opcode) (cw : CommandWord), cw &&& o.mask = o.pattern → cw &&& o'.mask = o'.pattern → o = o')

/-- 30_encoding.md R60, 20_memory.md R47: a decoder takes 8 bytes per command, byte k holding bits 8k+7 : 8k; two
32-bit halves hold bits 31:0 first. -/
def Obligations.CommandBytesLittleEndian : Prop :=
  (∀ (cw : CommandWord) (rest : List Byte), decodeBytes (CommandWord.bytes cw ++ rest) = .word (decode cw) rest) ∧
  (∀ (cw : CommandWord) (k : Nat), k < 8 → (CommandWord.bytes cw)[k]? = some (cw.extractLsb' (8 * k) 8)) ∧
  (∀ bs : List Byte, bs.length < 8 → decodeBytes bs = .incomplete) ∧
  (∀ cw : CommandWord, CommandWord.ofHalves (cw.extractLsb' 0 32) (cw.extractLsb' 32 32) = cw)

/-! ### The nine commands -/

/-- 44_control.md R120. -/
def Obligations.NopCommand : Prop :=
  (∀ cw : CommandWord, cw.extractLsb' 0 8 = 0x00 →
    decode cw = if cw = 0x0000000000000000 then .instr .nop else .reject .reservedField) ∧
  (∀ s : State, exec .nop s = .next { s with rej := false })

/-- 40_keystream.md R80. -/
def Obligations.KsSeedCommand : Prop :=
  (∀ cw : CommandWord, cw.extractLsb' 0 8 = 0x01 →
    (cw &&& 0x00000000FFFFFEFF = 0x0000000000000001 ↔ cw.extractLsb' 9 7 = 0 ∧ cw.extractLsb' 16 16 = 0) ∧
    decode cw =
      if cw &&& 0x00000000FFFFFEFF = 0x0000000000000001 then
        .instr (.ksSeed (if cw.getLsbD 8 then .ks1 else .ks0) (cw.extractLsb' 32 32))
      else .reject .reservedField) ∧
  (∀ (s : State) (d : Word),
    exec (.ksSeed .ks0 d) s = .next { s with ks0 := d, seeded0 := true, rej := false } ∧
    exec (.ksSeed .ks1 d) s = .next { s with ks1 := d, seeded1 := true, rej := false }) ∧
  (∃ t, step (State.reset.withCommand 0x0000123400000001) = .next t ∧ t.ks0 = 0x00001234 ∧ t.st = 0x00000100)

/-- 40_keystream.md R82. -/
def Obligations.KsNextCommand : Prop :=
  (∀ cw : CommandWord, cw.extractLsb' 0 8 = 0x02 →
    (cw &&& 0xFFFFFFFFFFFFFEFF = 0x0000000000000002 ↔
      cw.extractLsb' 9 7 = 0 ∧ cw.extractLsb' 16 16 = 0 ∧ cw.extractLsb' 32 32 = 0) ∧
    decode cw =
      if cw &&& 0xFFFFFFFFFFFFFEFF = 0x0000000000000002 then
        .instr (.ksNext (if cw.getLsbD 8 then .ks1 else .ks0))
      else .reject .reservedField) ∧
  (∀ s : State, s.seeded0 = true →
    exec (.ksNext .ks0) s =
      .next { s with
        ks0 := 0x41C64E6D * s.ks0 + 0x6073,
        res := ((0x41C64E6D * s.ks0 + 0x6073).extractLsb' 16 16).setWidth 32,
        rej := false }) ∧
  (∀ s : State, s.seeded1 = true →
    exec (.ksNext .ks1) s =
      .next { s with
        ks1 := 0x41C64E6D * s.ks1 + 0x6073,
        res := ((0x41C64E6D * s.ks1 + 0x6073).extractLsb' 16 16).setWidth 32,
        rej := false }) ∧
  (∀ (s : State) (g : KsId), s.seeded g = false →
    exec (.ksNext g) s = .next { s with rej := true, err := true, ecode := some .unseeded }) ∧
  (∀ s : State, ∃ t u v, exec (.ksSeed .ks0 0) s = .next t ∧
    exec (.ksNext .ks0) t = .next u ∧ u.ks0 = 0x00006073 ∧ u.res = 0x00000000 ∧
    exec (.ksNext .ks0) u = .next v ∧ v.ks0 = 0xE97E7B6A ∧ v.res = 0x0000E97E)

/-- 41_xor_decrypt.md R90. -/
def Obligations.XdWordCommand : Prop :=
  (∀ cw : CommandWord, cw.extractLsb' 0 8 = 0x03 →
    (cw &&& 0xFFFFFFFF0000FEFF = 0x0000000000000003 ↔ cw.extractLsb' 9 7 = 0 ∧ cw.extractLsb' 32 32 = 0) ∧
    decode cw =
      if cw &&& 0xFFFFFFFF0000FEFF = 0x0000000000000003 then
        .instr (.xdWord (if cw.getLsbD 8 then .ks1 else .ks0) (cw.extractLsb' 16 16))
      else .reject .reservedField) ∧
  (∀ (s : State) (w : Half), s.seeded0 = true →
    exec (.xdWord .ks0 w) s =
      .next { s with
        ks0 := 0x41C64E6D * s.ks0 + 0x6073,
        res := (w ^^^ (0x41C64E6D * s.ks0 + 0x6073).extractLsb' 16 16).setWidth 32,
        rej := false }) ∧
  (∀ (s : State) (w : Half), s.seeded1 = true →
    exec (.xdWord .ks1 w) s =
      .next { s with
        ks1 := 0x41C64E6D * s.ks1 + 0x6073,
        res := (w ^^^ (0x41C64E6D * s.ks1 + 0x6073).extractLsb' 16 16).setWidth 32,
        rej := false }) ∧
  (∀ (s : State) (g : KsId) (w : Half), s.seeded g = false →
    exec (.xdWord g w) s = .next { s with rej := true, err := true, ecode := some .unseeded }) ∧
  (∀ s : State, ∃ t u v x, exec (.ksSeed .ks1 0) s = .next t ∧
    exec (.xdWord .ks1 0x0000) t = .next u ∧ u.res = 0x00000000 ∧
    exec (.xdWord .ks1 0xE97E) u = .next v ∧ v.res = 0x00000000 ∧
    exec (.xdWord .ks1 0x5243) v = .next x ∧ x.res = 0x00000032)

/-- 42_permutation.md R104. -/
def Obligations.PrSelectCommand : Prop :=
  (∀ cw : CommandWord, cw.extractLsb' 0 8 = 0x10 →
    (cw &&& 0x00000000FFFFFFFF = 0x0000000000000010 ↔
      cw.extractLsb' 8 1 = 0 ∧ cw.extractLsb' 9 7 = 0 ∧ cw.extractLsb' 16 16 = 0) ∧
    decode cw =
      if cw &&& 0x00000000FFFFFFFF = 0x0000000000000010 then .instr (.prSelect (cw.extractLsb' 32 32))
      else .reject .reservedField) ∧
  (∀ (s : State) (d : Word),
    exec (.prSelect d) s = .next { s with res := ((d &&& 0x0003E000) >>> 13) % 24, rej := false }) ∧
  (∀ d : Word, (((d &&& 0x0003E000) >>> 13) % 24).toNat < 24) ∧
  (∀ d d' : Word, d.extractLsb' 13 5 = d'.extractLsb' 13 5 → sel d = sel d') ∧
  (∀ s : State, ∃ t, exec (.prSelect 0x00006000) s = .next t ∧ t.res = 3) ∧
  (∀ s : State, ∃ t, exec (.prSelect 0xFFFFFFFF) s = .next t ∧ t.res = 7)

/-- 42_permutation.md R105. -/
def Obligations.PrOffsetCommand : Prop :=
  (∀ cw : CommandWord, cw.extractLsb' 0 8 = 0x11 →
    (cw &&& 0x00000000FFFCFFFF = 0x0000000000000011 ↔
      cw.extractLsb' 8 1 = 0 ∧ cw.extractLsb' 9 7 = 0 ∧ cw.extractLsb' 18 14 = 0) ∧
    decode cw =
      if cw &&& 0x00000000FFFCFFFF = 0x0000000000000011 then
        .instr (.prOffset (cw.extractLsb' 32 32)
          (if cw.extractLsb' 16 2 = 0 then .a else if cw.extractLsb' 16 2 = 1 then .b
            else if cw.extractLsb' 16 2 = 2 then .c else .d))
      else .reject .reservedField) ∧
  (∀ (s : State) (d : Word) (blk : BlockId),
    exec (.prOffset d blk) s =
      .next { s with
        res := 8 + 32 * ((Config.permRom[sel d].extractLsb'
          (match blk with | .a => 0 | .b => 2 | .c => 4 | .d => 6) 2).setWidth 32),
        rej := false }) ∧
  (∀ (s t : State) (d : Word) (blk : BlockId), exec (.prOffset d blk) s = .next t →
    t.res = 8 ∨ t.res = 40 ∨ t.res = 72 ∨ t.res = 104) ∧
  (∀ (s t t' : State) (d : Word) (blk blk' : BlockId), exec (.prOffset d blk) s = .next t →
    exec (.prOffset d blk') s = .next t' → blk ≠ blk' → t.res ≠ t'.res) ∧
  (∀ s : State, ∃ t, exec (.prOffset 0x00006000 .c) s = .next t ∧ t.res = 40)

/-- 42_permutation.md R106. -/
def Obligations.PrEntryCommand : Prop :=
  (∀ cw : CommandWord, cw.extractLsb' 0 8 = 0x12 →
    (cw &&& 0xFFFFFFFFFFE0FFFF = 0x0000000000000012 ↔
      cw.extractLsb' 8 1 = 0 ∧ cw.extractLsb' 9 7 = 0 ∧ cw.extractLsb' 21 11 = 0 ∧ cw.extractLsb' 32 32 = 0) ∧
    decode cw =
      if cw &&& 0xFFFFFFFFFFE0FFFF = 0x0000000000000012 then .instr (.prEntry (cw.extractLsb' 16 5))
      else .reject .reservedField) ∧
  (∀ (s : State) (idx : BitVec 5) (h : idx.toNat < 24),
    exec (.prEntry idx) s = .next { s with res := (Config.permRom[idx.toNat]).setWidth 32, rej := false }) ∧
  (∀ (s : State) (idx : BitVec 5), 24 ≤ idx.toNat →
    exec (.prEntry idx) s = .next { s with rej := true, err := true, ecode := some .indexRange }) ∧
  (∀ s : State, ∃ t, exec (.prEntry 3) s = .next t ∧ t.res = 0x0000009C) ∧
  (∀ s : State, ∃ t, exec (.prEntry 24) s = .next t ∧ t.st.extractLsb' 4 4 = 4)

/-- 43_charmap.md R110, R111. -/
def Obligations.CmLookupCommand : Prop :=
  (∀ cw : CommandWord, cw.extractLsb' 0 8 = 0x20 →
    (cw &&& 0xFFFFFFFF0000FFFF = 0x0000000000000020 ↔
      cw.extractLsb' 8 1 = 0 ∧ cw.extractLsb' 9 7 = 0 ∧ cw.extractLsb' 32 32 = 0) ∧
    decode cw =
      if cw &&& 0xFFFFFFFF0000FFFF = 0x0000000000000020 then .instr (.cmLookup (cw.extractLsb' 16 16))
      else .reject .reservedField) ∧
  (∀ s : State, exec (.cmLookup 0xFFFF) s =
    .next { s with res := 0x0000FFFF, stop := true, scause := .endOfString, txt := none, rej := false }) ∧
  (∀ s : State, exec (.cmLookup 0x0000) s =
    .next { s with res := 0x00000000, stop := true, scause := .null, txt := none, rej := false }) ∧
  (∀ (s : State) (code : Half), code ≠ 0xFFFF → code ≠ 0x0000 → s.charTable.length ≤ code.toNat →
    exec (.cmLookup code) s =
      .next { s with res := code.setWidth 32, stop := true, scause := .range, txt := none, rej := false }) ∧
  (∀ (s : State) (code : Half), code ≠ 0xFFFF → code ≠ 0x0000 → (h : code.toNat < s.charTable.length) →
    exec (.cmLookup code) s =
      .next { s with
        res := code.setWidth 32, stop := false, scause := .ok, txt := some s.charTable[code.toNat],
        rej := false }) ∧
  (∀ (s : State) (value : UnitReading String), s.tableAs value = ["", "P", "i", "k"] →
    ∃ t, exec (.cmLookup 2) s = .next t ∧ t.txtAs value = some "i" ∧ t.st.getLsbD 0 = false)

/-- 43_charmap.md R112. A table longer than 65536 units is none of the spec's (00_scope.md R6). -/
def Obligations.CmLenCommand : Prop :=
  (∀ cw : CommandWord, cw.extractLsb' 0 8 = 0x21 →
    decode cw = if cw = 0x0000000000000021 then .instr .cmLen else .reject .reservedField) ∧
  (∀ s : State, exec .cmLen s = .next { s with res := BitVec.ofNat 32 s.charTable.length, rej := false }) ∧
  (∀ s : State, s.charTable.length ≤ 65536 → ∃ t, exec .cmLen s = .next t ∧ t.res.toNat = s.charTable.length)

/-! ### Statements about all commands -/

/-- What each command leaves unchanged (10_state.md R27, R28, R30; 20_memory.md R41, R45): the table and the model's
own fields by every command; the generator state by every command that names no instance; `STOP`, `SCAUSE` and `TXT`
by every command but CM.LOOKUP; `RES` by NOP, KS.SEED and a rejected command; `ERR` and `ECODE` by an accepted one. -/
def Obligations.CommandFrame : Prop :=
  ∀ (i : Instr) (s : State), ∃ t, exec i s = .next t ∧
    t.charTable = s.charTable ∧ t.phase = s.phase ∧ t.port = s.port ∧
    (∀ g, namedKs i ≠ some g → t.ks g = s.ks g ∧ t.seeded g = s.seeded g) ∧
    ((∀ code, i ≠ .cmLookup code) → t.stop = s.stop ∧ t.scause = s.scause ∧ t.txt = s.txt) ∧
    (i = .nop → t.res = s.res) ∧ (∀ g d, i = .ksSeed g d → t.res = s.res) ∧
    (t.rej = true → t = { s with rej := true, err := true, ecode := t.ecode }) ∧
    (t.rej = false → t.err = s.err ∧ t.ecode = s.ecode)

/-- 10_state.md R25: a command reads and writes only the instance it names; either instance accepts any seed. -/
def Obligations.InstancesIndependent : Prop :=
  (∀ (i : Instr) (g : KsId) (s : State), namedKs i ≠ some g →
    ∃ t, exec i s = .next t ∧ t.ks g = s.ks g ∧ t.seeded g = s.seeded g ∧
      ∀ (v : Word) (b : Bool), exec i (s.withGen g v b) = .next (t.withGen g v b)) ∧
  (∀ (g : KsId) (d : Word) (s : State), ∃ t, exec (.ksSeed g d) s = .next t ∧ t.ks g = d ∧ t.seeded g = true)

/-- 10_state.md R26, 70_reset_and_hazards.md R180: the state of an unseeded instance cannot be observed. Whatever it
is, a step gives the same outcome and the same response, and the states after differ at most in it, still unseeded. -/
def Obligations.UnseededStateUnobservable : Prop :=
  ∀ (s : State) (g : KsId) (v : Word), s.seeded g = false →
    (∀ t, step s = .next t → ∃ t', step (s.setKs g v) = .next t' ∧ t'.response = t.response ∧
      (t' = t ∨ (t' = t.setKs g v ∧ t.seeded g = false))) ∧
    (∀ r, step s = .refused r → step (s.setKs g v) = .refused r)

/-- 20_memory.md R43, R44: a table read has no side effect and is idempotent. Doing it again changes nothing. -/
def Obligations.TableReadsIdempotent : Prop :=
  ∀ (i : Instr) (s : State), namedKs i = none → ∃ t, exec i s = .next t ∧ exec i t = .next t

/-- 42_permutation.md R102: each entry is a permutation of (0, 1, 2, 3), and no two entries are equal. Rows 4-22 of the
table are log 8. -/
def Obligations.PermutationTableWellFormed : Prop :=
  (∀ k : Fin 24, List.Perm ([BlockId.a, .b, .c, .d].map fun blk => (pos Config.permRom[k] blk).toNat) [0, 1, 2, 3]) ∧
  (∀ k k' : Fin 24, Config.permRom[k] = Config.permRom[k'] → k = k')

/-- 10_state.md R33: states that agree in bits 31:16 can give different next words, and the low half of a state decides
the low half of the next by itself (95_test_vectors.md KS-7). -/
def Obligations.LowHalfIsHiddenState : Prop :=
  (∃ a b : Word, a.extractLsb' 16 16 = b.extractLsb' 16 16 ∧ keystreamWord (lcg a) ≠ keystreamWord (lcg b)) ∧
  (∀ a b : Word, a.extractLsb' 0 16 = b.extractLsb' 0 16 → (lcg a).extractLsb' 0 16 = (lcg b).extractLsb' 0 16)

/-- 00_scope.md R6: text units may be of any type. Whatever the names of the block stand for, CM.LOOKUP gives the unit
of the system's own table that the code selects and none on Stop, and a decoded name is that of the system's own
table; and the units of every table, of every type, can be given names that read back as them. The names are the model's
choice (log 3). -/
def Obligations.AnyTextUnitsCovered : Prop :=
  (∀ (T : Type) (value : UnitReading T) (s : State) (code : Half),
    ∃ t, exec (.cmLookup code) s = .next t ∧ t.tableAs value = s.tableAs value ∧
      t.txtAs value = if code = 0xFFFF ∨ code = 0x0000 then none else (s.tableAs value)[code.toNat]?) ∧
  (∀ (T : Type) (value : UnitReading T) (slot : List Byte) (s : State), slot.length = 236 → s.phase ≠ .reloaded →
    ∃ r t, decodeSlotBytes slot s = .ok (r, t) ∧ r.nameAs value = nameOf (s.tableAs value) (nameCodes slot)) ∧
  (∀ (T : Type) (table : List T), (unitNames table).map (unitsOf table) = table.map some)

/-- 00_scope.md R6: text units are opaque. Renaming every unit of a state renames those of the next state and changes
nothing else, so no step looks at what a unit is (log 3). -/
def Obligations.TextUnitsNeverInspected : Prop :=
  ∀ (f : TextUnit → TextUnit) (s : State),
    (∀ t, step s = .next t → step (s.renameUnits f) = .next (t.renameUnits f)) ∧
    (∀ r, step s = .refused r → step (s.renameUnits f) = .refused r)

/-! ### Runs of commands -/

/-- 40_keystream.md R81, R83: after KS.SEED g, s and any words none of which is a KS.SEED naming g, the next command
that steps g is the n-th such step and works with `k_n(s)`, whatever else was issued. -/
def Obligations.KeystreamOfSeed : Prop :=
  ∀ (g : KsId) (seed : Word) (cws : List CommandWord) (s : State),
    s.phase ≠ .reloaded → (∀ cw ∈ cws, seedsKs g cw = false) →
      (∃ rs t, runWords (encode (.ksSeed g seed) :: cws) s = .next (rs, t) ∧
        t.ks g = lcgIter (cws.countP (stepsKs g)) seed ∧
        (∃ r u, runWords [encode (.ksNext g)] t = .next ([r], u) ∧
          u.ks g = lcgIter (cws.countP (stepsKs g) + 1) seed ∧
          r.res = (keystream (cws.countP (stepsKs g) + 1) seed).setWidth 32) ∧
        (∀ w : Half, ∃ r u, runWords [encode (.xdWord g w)] t = .next ([r], u) ∧
          u.ks g = lcgIter (cws.countP (stepsKs g) + 1) seed ∧
          r.res = (w ^^^ keystream (cws.countP (stepsKs g) + 1) seed).setWidth 32))

/-- 41_xor_decrypt.md R92: the i-th XD.WORD after a seed works with the i-th keystream word. -/
def Obligations.DecryptInLockStep : Prop :=
  ∀ (g : KsId) (seed : Word) (ws : List Half) (s : State), s.phase ≠ .reloaded →
    ∃ rs t, decryptStream g seed ws s = .ok (rs, t) ∧ rs.length = ws.length ∧
      (∀ (i : Nat) (w : Half), ws[i]? = some w → rs[i]? = some (w ^^^ keystream (i + 1) seed)) ∧
      t.ks g = lcgIter ws.length seed

/-- 41_xor_decrypt.md R91: the same stream over a list of words twice gives the words back. -/
def Obligations.XorRoundTrip : Prop :=
  ∀ (g : KsId) (seed : Word) (ws : List Half) (s : State), s.phase ≠ .reloaded →
    ∃ rs t u, decryptStream g seed ws s = .ok (rs, t) ∧ decryptStream g seed rs t = .ok (ws, u)

/-- 41_xor_decrypt.md R93: XD.WORD does to the instance what KS.NEXT does, and its `RES` is `w XOR` KS.NEXT's. -/
def Obligations.XdWordIsKsNextXored : Prop :=
  ∀ (g : KsId) (w : Half) (s : State), s.seeded g = true →
    ∃ t, exec (.ksNext g) s = .next t ∧ exec (.xdWord g w) s = .next { t with res := w.setWidth 32 ^^^ t.res }

/-- 10_state.md R32, 20_memory.md R55: every word gets one response, the registers as they stand after it; the
responses to the first words depend on those alone; a response's registers are little-endian as bytes. -/
def Obligations.ResponsesInIssueOrder : Prop :=
  (∀ (cws : List CommandWord) (s : State), s.phase ≠ .reloaded →
    ∃ rs t, runWords cws s = .next (rs, t) ∧ rs.length = cws.length ∧ t.charTable = s.charTable ∧
      ∀ before after, cws = before ++ after → ∃ rs₁ rs₂ m, rs = rs₁ ++ rs₂ ∧
        runWords before s = .next (rs₁, m) ∧ runWords after m = .next (rs₂, t) ∧
        (before ≠ [] → rs₁.getLast? = some { res := m.res, st := m.st, txt := m.txt })) ∧
  (∀ (r : Response) (k : Nat), k < 4 →
    r.resBytes[k]? = some (r.res.extractLsb' (8 * k) 8) ∧ r.stBytes[k]? = some (r.st.extractLsb' (8 * k) 8))

/-! ### Invariants and safety -/

/-- Every step keeps the invariant of the block (10_state.md R29-R31, 43_charmap.md R110, 20_memory.md R44). -/
def Obligations.StepKeepsBlockInv : Prop :=
  ∀ s t : State, s.Inv → step s = .next t → t.Inv

/-- The invariant holds after reset. -/
def Obligations.ResetMeetsBlockInv : Prop := State.reset.Inv

/-- 48_host_sequences.md R150: while the host keeps its duties, the machine never stops, however long it runs. -/
def Obligations.ObedientHostNeverStops : Prop :=
  ∀ (k : Nat) (s : State), s.hostObeys = true → ∃ t, Host.Core.run core k s = .next t

/-- 48_host_sequences.md R150, 70_reset_and_hazards.md R184: a host that keeps every duty, seeding before it steps
among them, never stops the machine and never sees a command rejected with UNSEEDED. -/
def Obligations.DutifulHostNeverUnseeded : Prop :=
  ∀ (k : Nat) (s : State), s.hostKeepsDuties = true → s.rej = false →
    ∃ t, Host.Core.run core k s = .next t ∧ t.hostKeepsDuties = true ∧
      ¬ (t.rej = true ∧ t.ecode = some .unseeded)

/-! ### The host's decode -/

/-- 48_host_sequences.md R144: BufferTooShort exactly when the buffer is shorter than the offset and six slots; else,
with a table that was not changed during the run, six records. -/
def Obligations.PartyLengthCheck : Prop :=
  ∀ (buf : SaveBuffer) (off : Nat) (s : State),
    (buf.length < off + 1416 → decodeParty buf off s = .error .bufferTooShort) ∧
    (off + 1416 ≤ buf.length → s.phase ≠ .reloaded →
      ∃ rs t, decodeParty buf off s = .ok (rs, t) ∧ rs.length = 6)

/-- 48_host_sequences.md R141: the level is the byte at 0x8C XOR the low byte of the third keystream word of the
personality, and the battle-stat instance ends three steps after its seed. -/
def Obligations.SlotLevel : Prop :=
  ∀ (slot : List Byte) (s : State), slot.length = 236 → s.phase ≠ .reloaded →
    ∃ r t, decodeSlotBytes slot s = .ok (r, t) ∧
      r.level = slotByte slot 0x8C ^^^ (keystream 3 (slotPv slot)).extractLsb' 0 8 ∧
      t.ks .ks1 = lcgIter 3 (slotPv slot) ∧ t.seeded .ks1 = true

/-- 48_host_sequences.md R138, 20_memory.md R52, R53: the effort values are bytes 0x10-0x15 of block A, decrypted in
place. -/
def Obligations.SlotEffortValues : Prop :=
  ∀ (slot : List Byte) (s : State), slot.length = 236 → s.phase ≠ .reloaded →
    ∃ r t, decodeSlotBytes slot s = .ok (r, t) ∧
      r.effort = { hp := blockByte slot .a 0x10, atk := blockByte slot .a 0x11, dfn := blockByte slot .a 0x12,
                   spa := blockByte slot .a 0x13, spd := blockByte slot .a 0x14, spe := blockByte slot .a 0x15 }

/-- 48_host_sequences.md R136, R137: the name is the text units of block C's codes before the first Stop, and the codes
after it are not looked up. -/
def Obligations.SlotName : Prop :=
  (∀ (slot : List Byte) (s : State), slot.length = 236 → s.phase ≠ .reloaded →
    ∃ r t, decodeSlotBytes slot s = .ok (r, t) ∧ r.name = nameOf s.charTable (nameCodes slot) ∧
      r.name.length ≤ 11) ∧
  (∀ (before after : List Half) (c : Half) (s : State), codeRuns s.charTable c = false →
    nameScan (before ++ c :: after) s = nameScan (before ++ [c]) s)

/-- 48_host_sequences.md R146: the same buffer, offset and table give the same records whatever state the block is
in. -/
def Obligations.DecodeDeterministic : Prop :=
  ∀ (buf : SaveBuffer) (off : Nat) (s s' : State), s.phase ≠ .reloaded → s'.phase ≠ .reloaded →
    s.charTable = s'.charTable →
      (decodeParty buf off s).map Prod.fst = (decodeParty buf off s').map Prod.fst

/-- 48_host_sequences.md R148, R150: a block for each slot gives the records that one block gives, and the buffer
length is checked first. -/
def Obligations.SlotsOnBlocksApart : Prop :=
  (∀ (buf : SaveBuffer) (off : Nat) (sys : System), buf.length < off + 1416 →
    decodePartyApart buf off sys = .error .bufferTooShort) ∧
  (∀ (buf : SaveBuffer) (off : Nat) (s : State) (sys : System), off + 1416 ≤ buf.length →
    s.phase ≠ .reloaded → 6 ≤ sys.length → (∀ b ∈ sys, b.phase ≠ .reloaded) → shareTable s.charTable sys →
      ∃ rs t sys', decodeParty buf off s = .ok (rs, t) ∧ decodePartyApart buf off sys = .ok (rs, sys'))

/-- 48_host_sequences.md R148, R150: slots may be decoded in any order, on any blocks of the system; each slot's record
is the one the party decode gives it. The buffer length is checked before any slot is read. A schedule that names a
block the system does not have fails by name (the model's choice, log 13). -/
def Obligations.SlotsInAnyOrder : Prop :=
  (∀ (buf : SaveBuffer) (off : Nat) (schedule : List (Fin 6 × Nat)) (sys : System), buf.length < off + 1416 →
    decodePartyScheduled buf off schedule sys = .error .bufferTooShort) ∧
  (∀ (buf : SaveBuffer) (off : Nat) (schedule : List (Fin 6 × Nat)) (s : State) (sys : System),
    off + 1416 ≤ buf.length → s.phase ≠ .reloaded → (∀ b ∈ sys, b.phase ≠ .reloaded) →
    shareTable s.charTable sys → (∀ e ∈ schedule, e.2 < sys.length) →
      ∃ rs t rs' sys', decodeParty buf off s = .ok (rs, t) ∧
        decodePartyScheduled buf off schedule sys = .ok (rs', sys') ∧
        rs'.map some = schedule.map fun e => rs[e.1.val]?) ∧
  (∀ (buf : SaveBuffer) (off : Nat) (slot : Fin 6) (n : Nat) (rest : List (Fin 6 × Nat)) (sys : System),
    off + 1416 ≤ buf.length → sys.length ≤ n →
      decodePartyScheduled buf off ((slot, n) :: rest) sys = .error .noSuchBlock)

/-- 60_exceptions.md R171: a step of one block leaves every other block, and does not depend on them. -/
def Obligations.BlocksIndependent : Prop :=
  ∀ (sys : System) (n : Nat) (s t : State), sys[n]? = some s → step s = .next t →
    ∃ sys', stepBlock sys n = .next sys' ∧ sys'.length = sys.length ∧ sys'[n]? = some t ∧
      ∀ m, m ≠ n → sys'[m]? = sys[m]?

/-! ### The assembler -/

/-- 30_encoding.md R62, R70: the word of each command as a sum of its fields, and an assembly error for an operand that
does not fit. -/
def Obligations.AssemblerBuildsWords : Prop :=
  assemble .nop = some [0] ∧ assemble .cmLen = some [0x21] ∧
  (∀ g d : Nat, (assemble (.ksSeed g d)).map (List.map BitVec.toNat) =
    if g ≤ 1 ∧ d ≤ 0xFFFFFFFF then some [0x01 + 2 ^ 8 * g + 2 ^ 32 * d] else none) ∧
  (∀ g : Nat, (assemble (.ksNext g)).map (List.map BitVec.toNat) =
    if g ≤ 1 then some [0x02 + 2 ^ 8 * g] else none) ∧
  (∀ g w : Nat, (assemble (.xdWord g w)).map (List.map BitVec.toNat) =
    if g ≤ 1 ∧ w ≤ 0xFFFF then some [0x03 + 2 ^ 8 * g + 2 ^ 16 * w] else none) ∧
  (∀ d : Nat, (assemble (.prSelect d)).map (List.map BitVec.toNat) =
    if d ≤ 0xFFFFFFFF then some [0x10 + 2 ^ 32 * d] else none) ∧
  (∀ d b : Nat, (assemble (.prOffset d b)).map (List.map BitVec.toNat) =
    if d ≤ 0xFFFFFFFF ∧ b ≤ 3 then some [0x11 + 2 ^ 16 * b + 2 ^ 32 * d] else none) ∧
  (∀ k : Nat, (assemble (.prEntry k)).map (List.map BitVec.toNat) =
    if k ≤ 31 then some [0x12 + 2 ^ 16 * k] else none) ∧
  (∀ c : Nat, (assemble (.cmLookup c)).map (List.map BitVec.toNat) =
    if c ≤ 0xFFFF then some [0x20 + 2 ^ 16 * c] else none)

/-- 30_encoding.md R71: the three pseudo-instructions, an operand that does not fit being an error (R70); and there
are no others: every other mnemonic that assembler text can use is a command's own and gives that one command. -/
def Obligations.PseudoInstructionsExpand : Prop :=
  (∀ chk : Nat, assemble (.ksSeedChk chk) = if chk ≤ 0xFFFF then assemble (.ksSeed 0 chk) else none) ∧
  (∀ pv : Nat, assemble (.ksSeedPv pv) = assemble (.ksSeed 1 pv)) ∧
  (∀ g n : Nat,
    assemble (.ksSkip g n) = (assemble (.ksNext g)).map fun ws => (List.replicate n ws).flatten) ∧
  (∀ (mnemonic : String) (ops : List (List Char)) (a : AsmInstr), parseInstr mnemonic ops = some a →
    (mnemonic = "KS.SEEDCHK" ∧ ∃ chk, a = .ksSeedChk chk) ∨
    (mnemonic = "KS.SEEDPV" ∧ ∃ pv, a = .ksSeedPv pv) ∨
    (mnemonic = "KS.SKIP" ∧ ∃ g n, a = .ksSkip g n) ∨
    (∃ i, expandAsm a = [i] ∧ mnemonic = opcodeMnemonic i.opcode))
end

