-- ==== Sys2Proof/Laws/Decode.lean ====
section
/-! SUPPORT. The encoding's small lemmas: operand numbers, the opcode map, and fields and words. -/

namespace Sys2Proof

@[simp] theorem KsId.ofBit_bit (g : KsId) : KsId.ofBit g.bit = g := by cases g <;> rfl

theorem KsId.bit_ofBit (b : BitVec 1) : (KsId.ofBit b).bit = b := by
  revert b; decide

@[simp] theorem BlockId.ofBits_bits (blk : BlockId) : BlockId.ofBits blk.bits = blk := by cases blk <;> rfl

theorem BlockId.bits_ofBits (b : BitVec 2) : (BlockId.ofBits b).bits = b := by
  revert b; decide

@[simp] theorem Opcode.ofByte_code (o : Opcode) : Opcode.ofByte o.code = some o := by cases o <;> rfl

theorem Opcode.code_of_ofByte {b : Byte} {o : Opcode} (h : Opcode.ofByte b = some o) : o.code = b := by
  have := List.find?_some h
  simpa using this

/-- The fields of a word built from fields are those fields. -/
@[simp] theorem C64.ofWord_toWord (f : C64) : C64.ofWord f.toWord = f := by
  obtain ⟨op, g, z, a16, d32⟩ := f
  simp only [C64.ofWord, C64.toWord, C64.mk.injEq]
  refine ⟨?_, ?_, ?_, ?_, ?_⟩ <;>
  · ext i hi
    simp only [BitVec.getElem_extractLsb', BitVec.getLsbD_or, BitVec.getLsbD_shiftLeft, zext64,
      BitVec.getLsbD_setWidth]
    simp (disch := omega) [BitVec.getLsbD_of_ge, hi]
    try grind

/-- A word is built from its own fields. -/
@[simp] theorem C64.toWord_ofWord (cw : CommandWord) : (C64.ofWord cw).toWord = cw := by
  ext i hi
  simp only [C64.ofWord, C64.toWord, zext64, BitVec.getElem_or, BitVec.getElem_shiftLeft, BitVec.getElem_setWidth,
    BitVec.getLsbD_extractLsb']
  grind

theorem C64.ofWord_inj {cw cw' : CommandWord} : C64.ofWord cw = C64.ofWord cw' ↔ cw = cw' :=
  ⟨fun h => by rw [← C64.toWord_ofWord cw, h, C64.toWord_ofWord], fun h => by rw [h]⟩

/-- Masking a word masks each of its fields. -/
theorem C64.ofWord_and (cw m : CommandWord) :
    C64.ofWord (cw &&& m) =
      { op := (C64.ofWord cw).op &&& (C64.ofWord m).op, g := (C64.ofWord cw).g &&& (C64.ofWord m).g,
        z := (C64.ofWord cw).z &&& (C64.ofWord m).z, a16 := (C64.ofWord cw).a16 &&& (C64.ofWord m).a16,
        d32 := (C64.ofWord cw).d32 &&& (C64.ofWord m).d32 } := by
  simp [C64.ofWord, BitVec.extractLsb'_and]

/-- Masking off the low `n` bits of a 16-bit field leaves nothing exactly when the bits from `n` up are zero. -/
theorem half_and_highMask (a : Half) (n : Nat) (hn : n ≤ 16) :
    a &&& (BitVec.allOnes 16 <<< n) = 0 ↔ a.extractLsb' n (16 - n) = 0 := by
  constructor <;> intro h <;> apply BitVec.eq_of_getLsbD_eq <;> intro i hi
  · have bit := congrArg (fun x => x.getLsbD (n + i)) h
    simp only [BitVec.getLsbD_and, BitVec.getLsbD_shiftLeft, BitVec.getLsbD_allOnes,
      BitVec.getLsbD_extractLsb'] at bit ⊢
    have h1 : n + i < 16 := by omega
    have h2 : ¬ n + i < n := by omega
    have h3 : i < 16 := by omega
    simpa [hi, h1, h2, h3] using bit
  · have bit := congrArg (fun x => x.getLsbD (i - n)) h
    simp only [BitVec.getLsbD_and, BitVec.getLsbD_shiftLeft, BitVec.getLsbD_allOnes,
      BitVec.getLsbD_extractLsb'] at bit ⊢
    by_cases h2 : i < n
    · simp [h2]
    · have h1 : i - n < 16 - n := by omega
      have h3 : n + (i - n) = i := by omega
      simp only [h1, h3, decide_true, Bool.true_and] at bit
      simp [bit]

/-- The fields of a row's match: its `OP`, every other field zero. -/
theorem C64.ofWord_pattern (o : Opcode) :
    C64.ofWord o.pattern = { op := o.code, g := 0, z := 0, a16 := 0, d32 := 0 } := by
  cases o <;> decide

end Sys2Proof
end

