-- ==== Sys2Proof/Laws/State.lean ====
section
/-! SUPPORT. One lemma per field of State per update: what each named operation writes, and what it leaves. -/

namespace Sys2Proof.Machine

@[simp] theorem State.setKs_ks0 (s : State) (g : KsId) (v : Word) : (s.setKs g v).ks0 = if g = .ks0 then v else s.ks0 := by cases g <;> rfl
@[simp] theorem State.setKs_ks1 (s : State) (g : KsId) (v : Word) : (s.setKs g v).ks1 = if g = .ks1 then v else s.ks1 := by cases g <;> rfl
@[simp] theorem State.setKs_seeded0 (s : State) (g : KsId) (v : Word) : (s.setKs g v).seeded0 = s.seeded0 := by cases g <;> rfl
@[simp] theorem State.setKs_seeded1 (s : State) (g : KsId) (v : Word) : (s.setKs g v).seeded1 = s.seeded1 := by cases g <;> rfl
@[simp] theorem State.setKs_res (s : State) (g : KsId) (v : Word) : (s.setKs g v).res = s.res := by cases g <;> rfl
@[simp] theorem State.setKs_txt (s : State) (g : KsId) (v : Word) : (s.setKs g v).txt = s.txt := by cases g <;> rfl
@[simp] theorem State.setKs_stop (s : State) (g : KsId) (v : Word) : (s.setKs g v).stop = s.stop := by cases g <;> rfl
@[simp] theorem State.setKs_rej (s : State) (g : KsId) (v : Word) : (s.setKs g v).rej = s.rej := by cases g <;> rfl
@[simp] theorem State.setKs_err (s : State) (g : KsId) (v : Word) : (s.setKs g v).err = s.err := by cases g <;> rfl
@[simp] theorem State.setKs_ecode (s : State) (g : KsId) (v : Word) : (s.setKs g v).ecode = s.ecode := by cases g <;> rfl
@[simp] theorem State.setKs_scause (s : State) (g : KsId) (v : Word) : (s.setKs g v).scause = s.scause := by cases g <;> rfl
@[simp] theorem State.setKs_charTable (s : State) (g : KsId) (v : Word) : (s.setKs g v).charTable = s.charTable := by cases g <;> rfl
@[simp] theorem State.setKs_phase (s : State) (g : KsId) (v : Word) : (s.setKs g v).phase = s.phase := by cases g <;> rfl
@[simp] theorem State.setKs_port (s : State) (g : KsId) (v : Word) : (s.setKs g v).port = s.port := by cases g <;> rfl

@[simp] theorem State.setSeeded_ks0 (s : State) (g : KsId) : (s.setSeeded g).ks0 = s.ks0 := by cases g <;> rfl
@[simp] theorem State.setSeeded_ks1 (s : State) (g : KsId) : (s.setSeeded g).ks1 = s.ks1 := by cases g <;> rfl
@[simp] theorem State.setSeeded_seeded0 (s : State) (g : KsId) : (s.setSeeded g).seeded0 = (decide (g = .ks0) || s.seeded0) := by cases g <;> rfl
@[simp] theorem State.setSeeded_seeded1 (s : State) (g : KsId) : (s.setSeeded g).seeded1 = (decide (g = .ks1) || s.seeded1) := by cases g <;> rfl
@[simp] theorem State.setSeeded_res (s : State) (g : KsId) : (s.setSeeded g).res = s.res := by cases g <;> rfl
@[simp] theorem State.setSeeded_txt (s : State) (g : KsId) : (s.setSeeded g).txt = s.txt := by cases g <;> rfl
@[simp] theorem State.setSeeded_stop (s : State) (g : KsId) : (s.setSeeded g).stop = s.stop := by cases g <;> rfl
@[simp] theorem State.setSeeded_rej (s : State) (g : KsId) : (s.setSeeded g).rej = s.rej := by cases g <;> rfl
@[simp] theorem State.setSeeded_err (s : State) (g : KsId) : (s.setSeeded g).err = s.err := by cases g <;> rfl
@[simp] theorem State.setSeeded_ecode (s : State) (g : KsId) : (s.setSeeded g).ecode = s.ecode := by cases g <;> rfl
@[simp] theorem State.setSeeded_scause (s : State) (g : KsId) : (s.setSeeded g).scause = s.scause := by cases g <;> rfl
@[simp] theorem State.setSeeded_charTable (s : State) (g : KsId) : (s.setSeeded g).charTable = s.charTable := by cases g <;> rfl
@[simp] theorem State.setSeeded_phase (s : State) (g : KsId) : (s.setSeeded g).phase = s.phase := by cases g <;> rfl
@[simp] theorem State.setSeeded_port (s : State) (g : KsId) : (s.setSeeded g).port = s.port := by cases g <;> rfl

@[simp] theorem State.stepKs_ks0 (s : State) (g : KsId) : (s.stepKs g).ks0 = if g = .ks0 then lcg s.ks0 else s.ks0 := by cases g <;> simp [State.stepKs, State.ks]
@[simp] theorem State.stepKs_ks1 (s : State) (g : KsId) : (s.stepKs g).ks1 = if g = .ks1 then lcg s.ks1 else s.ks1 := by cases g <;> simp [State.stepKs, State.ks]
@[simp] theorem State.stepKs_seeded0 (s : State) (g : KsId) : (s.stepKs g).seeded0 = s.seeded0 := by cases g <;> simp [State.stepKs, State.ks]
@[simp] theorem State.stepKs_seeded1 (s : State) (g : KsId) : (s.stepKs g).seeded1 = s.seeded1 := by cases g <;> simp [State.stepKs, State.ks]
@[simp] theorem State.stepKs_res (s : State) (g : KsId) : (s.stepKs g).res = s.res := by cases g <;> simp [State.stepKs, State.ks]
@[simp] theorem State.stepKs_txt (s : State) (g : KsId) : (s.stepKs g).txt = s.txt := by cases g <;> simp [State.stepKs, State.ks]
@[simp] theorem State.stepKs_stop (s : State) (g : KsId) : (s.stepKs g).stop = s.stop := by cases g <;> simp [State.stepKs, State.ks]
@[simp] theorem State.stepKs_rej (s : State) (g : KsId) : (s.stepKs g).rej = s.rej := by cases g <;> simp [State.stepKs, State.ks]
@[simp] theorem State.stepKs_err (s : State) (g : KsId) : (s.stepKs g).err = s.err := by cases g <;> simp [State.stepKs, State.ks]
@[simp] theorem State.stepKs_ecode (s : State) (g : KsId) : (s.stepKs g).ecode = s.ecode := by cases g <;> simp [State.stepKs, State.ks]
@[simp] theorem State.stepKs_scause (s : State) (g : KsId) : (s.stepKs g).scause = s.scause := by cases g <;> simp [State.stepKs, State.ks]
@[simp] theorem State.stepKs_charTable (s : State) (g : KsId) : (s.stepKs g).charTable = s.charTable := by cases g <;> simp [State.stepKs, State.ks]
@[simp] theorem State.stepKs_phase (s : State) (g : KsId) : (s.stepKs g).phase = s.phase := by cases g <;> simp [State.stepKs, State.ks]
@[simp] theorem State.stepKs_port (s : State) (g : KsId) : (s.stepKs g).port = s.port := by cases g <;> simp [State.stepKs, State.ks]

@[simp] theorem State.setRes_ks0 (s : State) (v : Word) : (s.setRes v).ks0 = s.ks0 := rfl
@[simp] theorem State.setRes_ks1 (s : State) (v : Word) : (s.setRes v).ks1 = s.ks1 := rfl
@[simp] theorem State.setRes_seeded0 (s : State) (v : Word) : (s.setRes v).seeded0 = s.seeded0 := rfl
@[simp] theorem State.setRes_seeded1 (s : State) (v : Word) : (s.setRes v).seeded1 = s.seeded1 := rfl
@[simp] theorem State.setRes_res (s : State) (v : Word) : (s.setRes v).res = v := rfl
@[simp] theorem State.setRes_txt (s : State) (v : Word) : (s.setRes v).txt = s.txt := rfl
@[simp] theorem State.setRes_stop (s : State) (v : Word) : (s.setRes v).stop = s.stop := rfl
@[simp] theorem State.setRes_rej (s : State) (v : Word) : (s.setRes v).rej = s.rej := rfl
@[simp] theorem State.setRes_err (s : State) (v : Word) : (s.setRes v).err = s.err := rfl
@[simp] theorem State.setRes_ecode (s : State) (v : Word) : (s.setRes v).ecode = s.ecode := rfl
@[simp] theorem State.setRes_scause (s : State) (v : Word) : (s.setRes v).scause = s.scause := rfl
@[simp] theorem State.setRes_charTable (s : State) (v : Word) : (s.setRes v).charTable = s.charTable := rfl
@[simp] theorem State.setRes_phase (s : State) (v : Word) : (s.setRes v).phase = s.phase := rfl
@[simp] theorem State.setRes_port (s : State) (v : Word) : (s.setRes v).port = s.port := rfl

@[simp] theorem State.setLookup_ks0 (s : State) (c : StopCause) (u : Option TextUnit) : (s.setLookup c u).ks0 = s.ks0 := rfl
@[simp] theorem State.setLookup_ks1 (s : State) (c : StopCause) (u : Option TextUnit) : (s.setLookup c u).ks1 = s.ks1 := rfl
@[simp] theorem State.setLookup_seeded0 (s : State) (c : StopCause) (u : Option TextUnit) : (s.setLookup c u).seeded0 = s.seeded0 := rfl
@[simp] theorem State.setLookup_seeded1 (s : State) (c : StopCause) (u : Option TextUnit) : (s.setLookup c u).seeded1 = s.seeded1 := rfl
@[simp] theorem State.setLookup_res (s : State) (c : StopCause) (u : Option TextUnit) : (s.setLookup c u).res = s.res := rfl
@[simp] theorem State.setLookup_txt (s : State) (c : StopCause) (u : Option TextUnit) : (s.setLookup c u).txt = u := rfl
@[simp] theorem State.setLookup_stop (s : State) (c : StopCause) (u : Option TextUnit) : (s.setLookup c u).stop = isStop c := rfl
@[simp] theorem State.setLookup_rej (s : State) (c : StopCause) (u : Option TextUnit) : (s.setLookup c u).rej = s.rej := rfl
@[simp] theorem State.setLookup_err (s : State) (c : StopCause) (u : Option TextUnit) : (s.setLookup c u).err = s.err := rfl
@[simp] theorem State.setLookup_ecode (s : State) (c : StopCause) (u : Option TextUnit) : (s.setLookup c u).ecode = s.ecode := rfl
@[simp] theorem State.setLookup_scause (s : State) (c : StopCause) (u : Option TextUnit) : (s.setLookup c u).scause = c := rfl
@[simp] theorem State.setLookup_charTable (s : State) (c : StopCause) (u : Option TextUnit) : (s.setLookup c u).charTable = s.charTable := rfl
@[simp] theorem State.setLookup_phase (s : State) (c : StopCause) (u : Option TextUnit) : (s.setLookup c u).phase = s.phase := rfl
@[simp] theorem State.setLookup_port (s : State) (c : StopCause) (u : Option TextUnit) : (s.setLookup c u).port = s.port := rfl

@[simp] theorem State.accept_ks0 (s : State) : (s.accept).ks0 = s.ks0 := rfl
@[simp] theorem State.accept_ks1 (s : State) : (s.accept).ks1 = s.ks1 := rfl
@[simp] theorem State.accept_seeded0 (s : State) : (s.accept).seeded0 = s.seeded0 := rfl
@[simp] theorem State.accept_seeded1 (s : State) : (s.accept).seeded1 = s.seeded1 := rfl
@[simp] theorem State.accept_res (s : State) : (s.accept).res = s.res := rfl
@[simp] theorem State.accept_txt (s : State) : (s.accept).txt = s.txt := rfl
@[simp] theorem State.accept_stop (s : State) : (s.accept).stop = s.stop := rfl
@[simp] theorem State.accept_rej (s : State) : (s.accept).rej = false := rfl
@[simp] theorem State.accept_err (s : State) : (s.accept).err = s.err := rfl
@[simp] theorem State.accept_ecode (s : State) : (s.accept).ecode = s.ecode := rfl
@[simp] theorem State.accept_scause (s : State) : (s.accept).scause = s.scause := rfl
@[simp] theorem State.accept_charTable (s : State) : (s.accept).charTable = s.charTable := rfl
@[simp] theorem State.accept_phase (s : State) : (s.accept).phase = s.phase := rfl
@[simp] theorem State.accept_port (s : State) : (s.accept).port = s.port := rfl

@[simp] theorem State.reject_ks0 (s : State) (c : RejectCode) : (s.reject c).ks0 = s.ks0 := rfl
@[simp] theorem State.reject_ks1 (s : State) (c : RejectCode) : (s.reject c).ks1 = s.ks1 := rfl
@[simp] theorem State.reject_seeded0 (s : State) (c : RejectCode) : (s.reject c).seeded0 = s.seeded0 := rfl
@[simp] theorem State.reject_seeded1 (s : State) (c : RejectCode) : (s.reject c).seeded1 = s.seeded1 := rfl
@[simp] theorem State.reject_res (s : State) (c : RejectCode) : (s.reject c).res = s.res := rfl
@[simp] theorem State.reject_txt (s : State) (c : RejectCode) : (s.reject c).txt = s.txt := rfl
@[simp] theorem State.reject_stop (s : State) (c : RejectCode) : (s.reject c).stop = s.stop := rfl
@[simp] theorem State.reject_rej (s : State) (c : RejectCode) : (s.reject c).rej = true := rfl
@[simp] theorem State.reject_err (s : State) (c : RejectCode) : (s.reject c).err = true := rfl
@[simp] theorem State.reject_ecode (s : State) (c : RejectCode) : (s.reject c).ecode = some c := rfl
@[simp] theorem State.reject_scause (s : State) (c : RejectCode) : (s.reject c).scause = s.scause := rfl
@[simp] theorem State.reject_charTable (s : State) (c : RejectCode) : (s.reject c).charTable = s.charTable := rfl
@[simp] theorem State.reject_phase (s : State) (c : RejectCode) : (s.reject c).phase = s.phase := rfl
@[simp] theorem State.reject_port (s : State) (c : RejectCode) : (s.reject c).port = s.port := rfl

@[simp] theorem State.withAction_ks0 (s : State) (a : HostAction) : (s.withAction a).ks0 = s.ks0 := rfl
@[simp] theorem State.withAction_ks1 (s : State) (a : HostAction) : (s.withAction a).ks1 = s.ks1 := rfl
@[simp] theorem State.withAction_seeded0 (s : State) (a : HostAction) : (s.withAction a).seeded0 = s.seeded0 := rfl
@[simp] theorem State.withAction_seeded1 (s : State) (a : HostAction) : (s.withAction a).seeded1 = s.seeded1 := rfl
@[simp] theorem State.withAction_res (s : State) (a : HostAction) : (s.withAction a).res = s.res := rfl
@[simp] theorem State.withAction_txt (s : State) (a : HostAction) : (s.withAction a).txt = s.txt := rfl
@[simp] theorem State.withAction_stop (s : State) (a : HostAction) : (s.withAction a).stop = s.stop := rfl
@[simp] theorem State.withAction_rej (s : State) (a : HostAction) : (s.withAction a).rej = s.rej := rfl
@[simp] theorem State.withAction_err (s : State) (a : HostAction) : (s.withAction a).err = s.err := rfl
@[simp] theorem State.withAction_ecode (s : State) (a : HostAction) : (s.withAction a).ecode = s.ecode := rfl
@[simp] theorem State.withAction_scause (s : State) (a : HostAction) : (s.withAction a).scause = s.scause := rfl
@[simp] theorem State.withAction_charTable (s : State) (a : HostAction) : (s.withAction a).charTable = s.charTable := rfl
@[simp] theorem State.withAction_phase (s : State) (a : HostAction) : (s.withAction a).phase = s.phase := rfl
@[simp] theorem State.withAction_port (s : State) (a : HostAction) : (s.withAction a).port = a :: s.port := rfl

@[simp] theorem State.withCommand_ks0 (s : State) (cw : CommandWord) : (s.withCommand cw).ks0 = s.ks0 := rfl
@[simp] theorem State.withCommand_ks1 (s : State) (cw : CommandWord) : (s.withCommand cw).ks1 = s.ks1 := rfl
@[simp] theorem State.withCommand_seeded0 (s : State) (cw : CommandWord) : (s.withCommand cw).seeded0 = s.seeded0 := rfl
@[simp] theorem State.withCommand_seeded1 (s : State) (cw : CommandWord) : (s.withCommand cw).seeded1 = s.seeded1 := rfl
@[simp] theorem State.withCommand_res (s : State) (cw : CommandWord) : (s.withCommand cw).res = s.res := rfl
@[simp] theorem State.withCommand_txt (s : State) (cw : CommandWord) : (s.withCommand cw).txt = s.txt := rfl
@[simp] theorem State.withCommand_stop (s : State) (cw : CommandWord) : (s.withCommand cw).stop = s.stop := rfl
@[simp] theorem State.withCommand_rej (s : State) (cw : CommandWord) : (s.withCommand cw).rej = s.rej := rfl
@[simp] theorem State.withCommand_err (s : State) (cw : CommandWord) : (s.withCommand cw).err = s.err := rfl
@[simp] theorem State.withCommand_ecode (s : State) (cw : CommandWord) : (s.withCommand cw).ecode = s.ecode := rfl
@[simp] theorem State.withCommand_scause (s : State) (cw : CommandWord) : (s.withCommand cw).scause = s.scause := rfl
@[simp] theorem State.withCommand_charTable (s : State) (cw : CommandWord) : (s.withCommand cw).charTable = s.charTable := rfl
@[simp] theorem State.withCommand_phase (s : State) (cw : CommandWord) : (s.withCommand cw).phase = if s.phase = .reloaded then .fresh else s.phase := rfl
@[simp] theorem State.withCommand_port (s : State) (cw : CommandWord) : (s.withCommand cw).port = .command cw :: s.port := rfl

@[simp] theorem State.takeReset_ks0 (s : State) : (s.takeReset).ks0 = 0 := rfl
@[simp] theorem State.takeReset_ks1 (s : State) : (s.takeReset).ks1 = 0 := rfl
@[simp] theorem State.takeReset_seeded0 (s : State) : (s.takeReset).seeded0 = false := rfl
@[simp] theorem State.takeReset_seeded1 (s : State) : (s.takeReset).seeded1 = false := rfl
@[simp] theorem State.takeReset_res (s : State) : (s.takeReset).res = 0 := rfl
@[simp] theorem State.takeReset_txt (s : State) : (s.takeReset).txt = none := rfl
@[simp] theorem State.takeReset_stop (s : State) : (s.takeReset).stop = false := rfl
@[simp] theorem State.takeReset_rej (s : State) : (s.takeReset).rej = false := rfl
@[simp] theorem State.takeReset_err (s : State) : (s.takeReset).err = false := rfl
@[simp] theorem State.takeReset_ecode (s : State) : (s.takeReset).ecode = none := rfl
@[simp] theorem State.takeReset_scause (s : State) : (s.takeReset).scause = .ok := rfl
@[simp] theorem State.takeReset_charTable (s : State) : (s.takeReset).charTable = s.charTable := rfl
@[simp] theorem State.takeReset_phase (s : State) : (s.takeReset).phase = .fresh := rfl
@[simp] theorem State.takeReset_port (s : State) : (s.takeReset).port = s.port := rfl

end Sys2Proof.Machine
end

