-- ==== Sys2Proof/Laws/Ops.lean ====
section
/-! SUPPORT. What each shared operation and the step can do, said once. -/

namespace Sys2Proof.Machine

/-! ### Generator instances -/

@[simp] theorem State.ks_setKs_same (s : State) (g : KsId) (v : Word) : (s.setKs g v).ks g = v := by
  cases g <;> rfl

theorem State.ks_setKs_ne (s : State) {g h : KsId} (v : Word) (hne : h ≠ g) : (s.setKs g v).ks h = s.ks h := by
  cases g <;> cases h <;> first | rfl | exact absurd rfl hne

@[simp] theorem State.seeded_setSeeded_same (s : State) (g : KsId) : (s.setSeeded g).seeded g = true := by
  cases g <;> rfl

theorem State.seeded_setSeeded_ne (s : State) {g h : KsId} (hne : h ≠ g) :
    (s.setSeeded g).seeded h = s.seeded h := by
  cases g <;> cases h <;> first | rfl | exact absurd rfl hne

@[simp] theorem State.ks_stepKs_same (s : State) (g : KsId) : (s.stepKs g).ks g = lcg (s.ks g) := by
  cases g <;> rfl

theorem State.stepOrReject_of_seeded {s : State} {g : KsId} (value : Half → Half) (h : s.seeded g = true) :
    s.stepOrReject g value = ((s.stepKs g).setRes (zext32 (value (keystreamWord (lcg (s.ks g)))))).accept := by
  simp [State.stepOrReject, h]

theorem State.stepOrReject_of_unseeded {s : State} {g : KsId} (value : Half → Half) (h : s.seeded g = false) :
    s.stepOrReject g value = s.reject .unseeded := by
  simp [State.stepOrReject, h]

/-! ### Lookup -/

theorem textUnitOf_eq_some {T : Type} {table : List T} {code : Half} {u : T}
    (h : textUnitOf table code = some u) :
    stopCauseOf table.length code = .ok ∧ table[code.toNat]? = some u := by
  unfold textUnitOf at h
  split at h
  · exact ⟨by assumption, h⟩
  all_goals exact absurd h (by simp)

theorem stopCauseOf_eq_ok_iff (len : Nat) (code : Half) :
    stopCauseOf len code = .ok ↔ code ≠ 0xFFFF ∧ code ≠ 0x0000 ∧ code.toNat < len := by
  unfold stopCauseOf
  split
  · simp_all
  split
  · simp_all
  split
  · simp_all
  · simp_all

/-! ### Commands, actions, steps -/

/-- No instruction faults or is refused: every command has a next state. -/
theorem exec_next (i : Instr) (s : State) : ∃ t, exec i s = .next t := by
  cases i <;> exact ⟨_, rfl⟩

theorem takeWord_next (cw : CommandWord) (s : State) : ∃ t, takeWord cw s = .next t := by
  unfold takeWord
  cases decode cw with
  | instr i => exact exec_next i s
  | reject c => exact ⟨_, rfl⟩

theorem takeCommand_of_phase {cw : CommandWord} {s : State} (h : s.phase ≠ .reloaded) :
    takeCommand cw s = takeWord cw { s with phase := .running } := by
  unfold takeCommand
  cases hp : s.phase <;> simp_all

/-- Everything a step that answers a next state can have done. -/
theorem step_next_cases {s t : State} (h : step s = .next t) :
    (s.port = [] ∧ t = s) ∨
    (∃ cw rest, s.port = .command cw :: rest ∧ s.phase ≠ .reloaded ∧
      takeWord cw { s with port := rest, phase := .running } = .next t) ∨
    (∃ rest, s.port = .reset :: rest ∧ t = State.takeReset { s with port := rest }) ∨
    (∃ table rest, s.port = .loadTable table :: rest ∧ table.length ≤ Config.maxTableLength ∧
      t = { s with port := rest, charTable := table,
                   phase := if s.phase = .fresh then .fresh else .reloaded }) := by
  unfold step portStep at h
  cases hp : s.port with
  | nil => simp_all
  | cons a rest =>
    simp only [hp] at h
    cases a with
    | command cw =>
      by_cases hr : s.phase = .reloaded
      · simp [takeAction, takeCommand, hr] at h
      · refine .inr (.inl ⟨cw, rest, rfl, hr, ?_⟩)
        rw [← h]
        exact (takeCommand_of_phase (s := { s with port := rest }) hr).symm
    | reset => exact .inr (.inr (.inl ⟨rest, rfl, by simpa [takeAction] using h.symm⟩))
    | loadTable table =>
      refine .inr (.inr (.inr ⟨table, rest, rfl, ?_⟩))
      by_cases hl : table.length ≤ Config.maxTableLength
      · simp only [takeAction, State.loadTable, if_pos hl, Host.Outcome.next.injEq] at h
        exact ⟨hl, h.symm⟩
      · simp [takeAction, State.loadTable, hl] at h
    | commandEarly cw => simp [takeAction] at h
    | resetDuring cw => simp [takeAction] at h

end Sys2Proof.Machine
end

