-- ==== Sys2Proof/Laws/Host.lean ====
section
/-! SUPPORT. What issuing a command does, and what reading the save buffer gives. -/

namespace Sys2Proof.Machine

/-- Issuing a word runs it and leaves the rest of the port as it was. -/
theorem issue_eq {cw : CommandWord} {s : State} (h : s.phase ≠ .reloaded) :
    issue cw s = takeWord cw { s with phase := .running } := by
  unfold issue step portStep
  exact takeCommand_of_phase h

/-- Outside a run spoilt by a table change every issued word has a next state. -/
theorem issue_next {cw : CommandWord} {s : State} (h : s.phase ≠ .reloaded) : ∃ t, issue cw s = .next t := by
  rw [issue_eq h]
  exact takeWord_next cw _

theorem step_withCommand (s : State) (cw : CommandWord) :
    step (s.withCommand cw) = takeWord cw { s with phase := .running } := by
  unfold step portStep
  exact takeCommand_of_phase (s := { s with phase := if s.phase = .reloaded then .fresh else s.phase })
    (by cases h : s.phase <;> simp)

theorem memSlice_of_le {buf : SaveBuffer} {addr n : Nat} (h : addr + n ≤ buf.length) :
    memSlice buf addr n = .ok ((buf.drop addr).take n) := by
  simp [memSlice, h]

theorem memSlice_length {buf bs : SaveBuffer} {addr n : Nat} (h : memSlice buf addr n = .ok bs) : bs.length = n := by
  unfold memSlice at h
  split at h
  · cases h
    rw [List.length_take, List.length_drop]
    omega
  · cases h

theorem bytesOf_length (n v : Nat) : (bytesOf n v).length = n := by
  induction n generalizing v with
  | zero => rfl
  | succ n ih => simp [bytesOf, ih]

theorem lcgIter_succ (n : Nat) (s : Word) : lcgIter (n + 1) s = lcg (lcgIter n s) := by
  induction n generalizing s with
  | zero => rfl
  | succ n ih => exact ih (lcg s)

end Sys2Proof.Machine
end

