-- ==== Sys2Proof/Laws/PerInstr.lean ====
section
/-! SUPPORT. Statements made for every instruction, one lemma per constructor. -/

namespace Sys2Proof.Laws.UnusedFieldsZero

/-- The fields an instruction is encoded in have every field it does not use at zero (30_encoding.md R65). -/
def Statement (i : Instr) : Prop := i.fields.unusedZero i.opcode = true

theorem nop : Statement .nop := by simp [Statement, Instr.fields, C64.unusedZero, Instr.opcode]

theorem ksSeed (g : KsId) (seed : Word) : Statement (.ksSeed g seed) := by
  simp [Statement, Instr.fields, C64.unusedZero, Instr.opcode]

theorem ksNext (g : KsId) : Statement (.ksNext g) := by
  simp [Statement, Instr.fields, C64.unusedZero, Instr.opcode]

theorem xdWord (g : KsId) (w : Half) : Statement (.xdWord g w) := by
  simp [Statement, Instr.fields, C64.unusedZero, Instr.opcode]

theorem prSelect (pv : Word) : Statement (.prSelect pv) := by
  simp [Statement, Instr.fields, C64.unusedZero, Instr.opcode]

theorem prOffset (pv : Word) (blk : BlockId) : Statement (.prOffset pv blk) := by
  cases blk <;> simp [Statement, Instr.fields, C64.unusedZero, Instr.opcode, BlockId.bits]

theorem prEntry (idx : BitVec 5) : Statement (.prEntry idx) := by
  revert idx
  unfold Statement
  decide

theorem cmLookup (code : Half) : Statement (.cmLookup code) := by
  simp [Statement, Instr.fields, C64.unusedZero, Instr.opcode]

theorem cmLen : Statement .cmLen := by simp [Statement, Instr.fields, C64.unusedZero, Instr.opcode]

end Sys2Proof.Laws.UnusedFieldsZero
end

