-- ==== Sys2Proof/Laws/TextUnits.lean ====
section
/-! SUPPORT. What renaming text units and reading them in another type does. -/

namespace Sys2Proof.Machine

@[simp] theorem State.renameUnits_ks0 (f : TextUnit → TextUnit) (s : State) :
    (s.renameUnits f).ks0 = s.ks0 := rfl

@[simp] theorem State.renameUnits_ks1 (f : TextUnit → TextUnit) (s : State) :
    (s.renameUnits f).ks1 = s.ks1 := rfl

@[simp] theorem State.renameUnits_seeded0 (f : TextUnit → TextUnit) (s : State) :
    (s.renameUnits f).seeded0 = s.seeded0 := rfl

@[simp] theorem State.renameUnits_seeded1 (f : TextUnit → TextUnit) (s : State) :
    (s.renameUnits f).seeded1 = s.seeded1 := rfl

@[simp] theorem State.renameUnits_res (f : TextUnit → TextUnit) (s : State) :
    (s.renameUnits f).res = s.res := rfl

@[simp] theorem State.renameUnits_txt (f : TextUnit → TextUnit) (s : State) :
    (s.renameUnits f).txt = s.txt.map f := rfl

@[simp] theorem State.renameUnits_stop (f : TextUnit → TextUnit) (s : State) :
    (s.renameUnits f).stop = s.stop := rfl

@[simp] theorem State.renameUnits_rej (f : TextUnit → TextUnit) (s : State) :
    (s.renameUnits f).rej = s.rej := rfl

@[simp] theorem State.renameUnits_err (f : TextUnit → TextUnit) (s : State) :
    (s.renameUnits f).err = s.err := rfl

@[simp] theorem State.renameUnits_ecode (f : TextUnit → TextUnit) (s : State) :
    (s.renameUnits f).ecode = s.ecode := rfl

@[simp] theorem State.renameUnits_scause (f : TextUnit → TextUnit) (s : State) :
    (s.renameUnits f).scause = s.scause := rfl

@[simp] theorem State.renameUnits_charTable (f : TextUnit → TextUnit) (s : State) :
    (s.renameUnits f).charTable = s.charTable.map f := rfl

@[simp] theorem State.renameUnits_phase (f : TextUnit → TextUnit) (s : State) :
    (s.renameUnits f).phase = s.phase := rfl

@[simp] theorem State.renameUnits_port (f : TextUnit → TextUnit) (s : State) :
    (s.renameUnits f).port = s.port.map (HostAction.renameUnits f) := rfl

/-- A lookup in a table read in another type is the lookup read in it. -/
theorem textUnitOf_map {T U : Type} (f : T → U) (table : List T) (code : Half) :
    textUnitOf (table.map f) code = (textUnitOf table code).map f := by
  unfold textUnitOf
  rw [List.length_map]
  split <;> simp

/-- Stop is decided by the code alone but for RANGE, where the table has no entry (43_charmap.md R110). -/
theorem textUnitOf_eq {T : Type} (table : List T) (code : Half) :
    textUnitOf table code = if code = 0xFFFF ∨ code = 0x0000 then none else table[code.toNat]? := by
  unfold textUnitOf stopCauseOf
  by_cases h1 : code = 0xFFFF
  · simp [h1]
  by_cases h2 : code = 0x0000
  · simp [h2]
  rw [if_neg h1, if_neg h2, if_neg (not_or.mpr ⟨h1, h2⟩)]
  by_cases h3 : table.length ≤ code.toNat
  · rw [if_pos h3, List.getElem?_eq_none h3]
  · rw [if_neg h3]

end Sys2Proof.Machine
end

