-- ==== Sys2Proof/Tests/Slice0.lean ====
section
/-! SUPPORT. The model's own tests. Expected values are from 95_test_vectors.md (the vector is named) or worked out by
hand from the rule named. Then one witness for every statement of Obligations.lean that has hypotheses. -/

namespace Sys2Proof.Tests

open Sys2Proof Sys2Proof.Machine

/-! ### Helpers -/

/-- The character table of 95_test_vectors.md. -/
def unitTexts : List String := ["", "P", "i", "k"]

/-- The strings that the names of that table stand for. -/
def text : UnitReading String := fun u => unitTexts.getD u.name "?"

/-- The block after reset with the character table of 95_test_vectors.md. -/
def block : State := { State.reset with charTable := unitNames unitTexts }

/-- The block with both instances seeded. -/
def seededBlock (a b : Word) : State := { block with ks0 := a, ks1 := b, seeded0 := true, seeded1 := true }

/-- The next state of an outcome. -/
def after (o : Host.Outcome State Fault Refusal) : Option State :=
  match o with
  | .next t => some t
  | .fault _ => none
  | .refused _ => none

/-- `RES` and `ST` after one command word, from a state. -/
def resSt (s : State) (cw : CommandWord) : Option (Word × Word) :=
  (after (step (s.withCommand cw))).map fun t => (t.res, t.st)

/-- The length of a buffer of equal bytes. -/
theorem length_zeros (n : Nat) (b : Byte) : (List.replicate n b).length = n := List.length_replicate

/-! ### Well-formedness: an ill-formed term for each check -/

theorem test_nop_fields : [C64.mk 0 1 0 0 0, C64.mk 0 0 1 0 0, C64.mk 0 0 0 1 0, C64.mk 0 0 0 0 1].all
    (fun f => !f.unusedZero .nop) = true := by decide

theorem test_ksSeed_fields : [C64.mk 1 1 64 0 5, C64.mk 1 1 0 0x8000 5].all
    (fun f => !f.unusedZero .ksSeed) = true := by decide

theorem test_ksNext_fields : [C64.mk 2 1 1 0 0, C64.mk 2 1 0 1 0, C64.mk 2 1 0 0 1].all
    (fun f => !f.unusedZero .ksNext) = true := by decide

theorem test_xdWord_fields : [C64.mk 3 1 1 7 0, C64.mk 3 1 0 7 1].all
    (fun f => !f.unusedZero .xdWord) = true := by decide

theorem test_prSelect_fields : [C64.mk 16 1 0 0 5, C64.mk 16 0 1 0 5, C64.mk 16 0 0 1 5].all
    (fun f => !f.unusedZero .prSelect) = true := by decide

theorem test_prOffset_fields : [C64.mk 17 1 0 3 5, C64.mk 17 0 1 3 5, C64.mk 17 0 0 4 5].all
    (fun f => !f.unusedZero .prOffset) = true := by decide

theorem test_prEntry_fields : [C64.mk 18 1 0 31 0, C64.mk 18 0 1 31 0, C64.mk 18 0 0 32 0, C64.mk 18 0 0 31 1].all
    (fun f => !f.unusedZero .prEntry) = true := by decide

theorem test_cmLookup_fields : [C64.mk 32 1 0 7 0, C64.mk 32 0 1 7 0, C64.mk 32 0 0 7 1].all
    (fun f => !f.unusedZero .cmLookup) = true := by decide

theorem test_cmLen_fields : [C64.mk 33 1 0 0 0, C64.mk 33 0 1 0 0, C64.mk 33 0 0 1 0, C64.mk 33 0 0 0 1].all
    (fun f => !f.unusedZero .cmLen) = true := by decide

/-- Operands one past their field (30_encoding.md R70). -/
theorem test_asm_ill_formed :
    [AsmInstr.ksSeed 2 0, .ksSeed 0 0x100000000, .ksNext 2, .xdWord 2 0, .xdWord 0 0x10000, .prSelect 0x100000000,
     .prOffset 0x100000000 0, .prOffset 0 4, .prEntry 32, .cmLookup 0x10000, .ksSeedChk 0x10000,
     .ksSeedPv 0x100000000, .ksSkip 2 1].all (fun a => !a.wellFormed) = true := by decide

/-- Operands at the top of their field, and an index 24 to 31 (30_encoding.md R70). -/
theorem test_asm_well_formed :
    [AsmInstr.ksSeed 1 0xFFFFFFFF, .xdWord 1 0xFFFF, .prOffset 0xFFFFFFFF 3, .prEntry 31, .cmLookup 0xFFFF,
     .ksSeedChk 0xFFFF].all AsmInstr.wellFormed = true := by decide

/-! ### Decoding: words written out from 30_encoding.md R61, R66 -/

/-- OP = 0, every other bit 0. -/
theorem test_decode_nop : decode 0x0000000000000000 = .instr .nop := by decide

/-- D32 = 0xDEADBEEF in bits 63:32, G = 1 in bit 8, OP = 0x01. -/
theorem test_decode_ksSeed : decode 0xDEADBEEF00000101 = .instr (.ksSeed .ks1 0xDEADBEEF) := by decide

/-- G = 1 in bit 8, OP = 0x02. -/
theorem test_decode_ksNext : decode 0x0000000000000102 = .instr (.ksNext .ks1) := by decide

/-- A16 = 0x5243 in bits 31:16, G = 1, OP = 0x03 (30_encoding.md R62). -/
theorem test_decode_xdWord : decode 0x0000000052430103 = .instr (.xdWord .ks1 0x5243) := by decide

/-- D32 = 0x00006000, OP = 0x10. -/
theorem test_decode_prSelect : decode 0x0000600000000010 = .instr (.prSelect 0x00006000) := by decide

/-- D32 = 0x00006000, A16 = 3 (block D), OP = 0x11. -/
theorem test_decode_prOffset : decode 0x0000600000030011 = .instr (.prOffset 0x00006000 .d) := by decide

/-- A16 = 31, OP = 0x12: decoded, and rejected only when executed. -/
theorem test_decode_prEntry : decode 0x00000000001F0012 = .instr (.prEntry 31) := by decide

/-- A16 = 0xFFFF, OP = 0x20. -/
theorem test_decode_cmLookup : decode 0x00000000FFFF0020 = .instr (.cmLookup 0xFFFF) := by decide

/-- OP = 0x21. -/
theorem test_decode_cmLen : decode 0x0000000000000021 = .instr .cmLen := by decide

/-- DC-4, DC-6, DC-9, and an illegal OP with every other bit set (95_test_vectors.md 2.5). -/
theorem test_decode_rejects :
    decode 0x0000000000000013 = .reject .illegalOpcode ∧ decode 0x8000000000000000 = .reject .reservedField ∧
    decode 0x00000000001F0112 = .reject .reservedField ∧ decode 0xFFFFFFFFFFFFFF05 = .reject .illegalOpcode := by
  decide

/-- The encoder writes the examples of 30_encoding.md R62. -/
theorem test_encode : encode (.ksSeed .ks0 0x1234) = 0x0000123400000001 ∧
    encode (.xdWord .ks1 0x5243) = 0x0000000052430103 := by decide

/-- Byte k holds bits 8k+7 : 8k (20_memory.md R47): OP is the first byte, D32's top byte the last. -/
theorem test_bytes : CommandWord.bytes 0xDEADBEEF52430103 = [0x03, 0x01, 0x43, 0x52, 0xEF, 0xBE, 0xAD, 0xDE] := by
  decide

theorem test_decodeTableWord : decodeTableWord 8 0x21 = some .cmLen ∧
    decodeTableWord 64 0x00000000FFFF0020 = some (.cmLookup 0xFFFF) ∧ decodeTableWord 8 0x05 = none := by decide

/-! ### The commands, one step each -/

/-- DC-10: NOP after a rejection clears REJ and keeps ERR and ECODE 2. -/
theorem test_nop : resSt { block with rej := true, err := true, ecode := some .reservedField } 0 =
    some (0, 0x024) := by decide

/-- P2: KS.SEEDPV 0xDEADBEEF after an INDEX_RANGE rejection gives ST = 244, KS1 = DEADBEEF. -/
theorem test_ksSeed :
    (after (step (State.withCommand { block with err := true, ecode := some .indexRange } 0xDEADBEEF00000101))).map
      (fun t => (t.ks1, t.st)) = some (0xDEADBEEF, 0x244) := by decide

/-- KS-3: seed 0xFFFFFFFF wraps to BE3A1206. -/
theorem test_ksNext_wraps : (after (exec (.ksNext .ks0) (seededBlock 0xFFFFFFFF 0))).map
    (fun t => (t.ks0, t.res)) = some (0xBE3A1206, 0x0000BE3A) := by decide

/-- KS-10: KS.NEXT 1 unseeded, ST = 036, not stepped. -/
theorem test_ksNext_unseeded : resSt block 0x0000000000000102 = some (0, 0x036) := by decide

/-- XD-2b: XD.WORD 0, 0xFFFF at state 4DCBF897 gives 1E9E and state E1613ABE. -/
theorem test_xdWord : (after (exec (.xdWord .ks0 0xFFFF) (seededBlock 0x4DCBF897 5))).map
    (fun t => (t.ks0, t.ks1, t.res)) = some (0xE1613ABE, 5, 0x00001E9E) := by decide

/-- XD-7: XD.WORD 1, 0x1234 unseeded, ST = 036. -/
theorem test_xdWord_unseeded : resSt block 0x0000000012340103 = some (0, 0x036) := by decide

/-- PR-4, PR-5, PR-7, PR-12. -/
theorem test_prSelect : sel 0x0002E000 = 23 ∧ sel 0x00030000 = 0 ∧ sel 0xFFFFFFFF = 7 ∧ sel 0xDEADBEEF = 13 := by
  decide

/-- PR-14: PR.OFFSET 0x6000, B gives 0x68. -/
theorem test_prOffset : resSt block 0x0000600000010011 = some (0x68, 0) := by decide

/-- PR-21: PR.ENTRY 23 gives 1B. -/
theorem test_prEntry : resSt block 0x0000000000170012 = some (0x1B, 0) := by decide

/-- PR-22: PR.ENTRY 24 keeps RES, ST = 046. -/
theorem test_prEntry_range : resSt { block with res := 0x1B } 0x0000000000180012 = some (0x1B, 0x046) := by decide

/-- CM-2: the last entry of the table. -/
theorem test_cmLookup_last : (after (exec (.cmLookup 3) block)).map (fun t => (t.res, t.st, t.txtAs text)) =
    some (3, 0, some "k") := by decide

/-- CM-3 and CM-9a: the first code past the table; with an empty table NULL wins over RANGE. -/
theorem test_cmLookup_stops : resSt block 0x0000000000040020 = some (4, 0xC01) ∧
    resSt { block with charTable := [] } 0x0000000000000020 = some (0, 0x801) := by decide

/-- CM-7: CM.LEN keeps TXT. -/
theorem test_cmLen : (after (exec .cmLen { block with txt := some ⟨2⟩ })).map (fun t => (t.res, t.txtAs text)) =
    some (4, some "i") := by decide

/-- CM-12: a table of 65536 entries has length 0x00010000. -/
theorem test_cmLen_full (t : List TextUnit) (h : t.length = 65536) :
    (after (exec .cmLen { block with charTable := t })).map (fun s => s.res) = some 0x00010000 := by
  simp [exec, execCmLen, after, h]

/-! ### Port and host -/

/-- 70_reset_and_hazards.md R181: reset clears ERR and SEEDED and keeps the table. -/
theorem test_reset : (after (step { seededBlock 1 2 with err := true, ecode := some .unseeded, port := [.reset] })).map
    (fun t => (t.st, t.ks0, t.tableAs text)) = some (0, 0, ["", "P", "i", "k"]) := by decide

/-- 20_memory.md R45: a table changed during the run leaves only a reset. -/
theorem test_reload : after (step { block with phase := .reloaded, port := [.command 0] }) = none ∧
    (after (step { block with phase := .running, port := [.loadTable []] })).map (fun t => t.phase) =
      some .reloaded := by decide

/-- KS-2: the first three keystream words of seed 0x1234. -/
theorem test_keystream : [keystream 1 0x1234, keystream 2 0x1234, keystream 3 0x1234] = [0x4DCB, 0xE161, 0x4340] := by
  decide

/-- 20_memory.md R46: bytes 0x34 0x12 are 0x1234. -/
theorem test_memRead : littleEndian [0x34, 0x12] = 0x1234 ∧ bytesOf 2 0x1234 = [0x34, 0x12] := by decide

/-- 30_encoding.md R70, R62: a line with a comment and a hexadecimal operand. -/
theorem test_assemble_line : assembleLine "XD.WORD 1, 0x5243 ; word at 0x8C" = .words [0x0000000052430103] := by
  decide

/-- 30_encoding.md R70: a block letter, an operand that does not fit, an empty line. -/
theorem test_assemble_forms : assembleLine "PR.OFFSET 0x00006000, C" = .words [0x0000600000020011] ∧
    assembleLine "KS.NEXT 2" = .error ∧ assembleLine " ; only a comment" = .empty := by decide

/-! ### Witnesses: the hypotheses of each statement can be met -/

theorem witness_OnlyResetClearsErrAndSeeded :
    ({ block with port := [.reset] } : State).port = .reset :: [] ∧
    (∃ t, step { seededBlock 1 2 with err := true, port := [.command 0] } = .next t ∧ t.err = true) ∧
    (∀ rest, ({ seededBlock 1 2 with err := true, port := [.command 0] } : State).port ≠ .reset :: rest) ∧
    ({ block with port := [.resetDuring 0] } : State).port = .resetDuring 0 :: [] :=
  ⟨rfl, ⟨_, rfl, rfl⟩, by simp, rfl⟩

theorem witness_StepRunsDecodedCommand : ∃ s : State, s.port = .command 0x21 :: [.reset] ∧ s.phase ≠ .reloaded ∧
    decode 0x21 = .instr .cmLen :=
  ⟨{ block with port := [.command 0x21, .reset] }, rfl, by decide, by decide⟩

theorem witness_WaitsAndRefusesMisuse :
    block.port = [] ∧ (∃ s : State, s.port = .commandEarly 0 :: []) ∧ (∃ s : State, s.port = .resetDuring 0 :: []) ∧
    (∃ s : State, s.port = .command 0 :: [] ∧ s.phase = .reloaded) ∧
    (∃ s : State, s.port = .loadTable [⟨7⟩] :: []) :=
  ⟨rfl, ⟨{ block with port := [.commandEarly 0] }, rfl⟩, ⟨{ block with port := [.resetDuring 0] }, rfl⟩,
   ⟨{ block with port := [.command 0], phase := .reloaded }, rfl, rfl⟩,
   ⟨{ block with port := [.loadTable [⟨7⟩]] }, rfl⟩⟩

/-- One word for each cause and one accepted, at the indexes where INDEX_RANGE begins. -/
theorem witness_CommandAcceptedOrRejected :
    ({ block with port := [.command 0x05] } : State).phase ≠ .reloaded ∧
    rejectionCause block 0x05 = some .illegalOpcode ∧ rejectionCause block 0x0000000100000002 = some .reservedField ∧
    rejectionCause block 0x02 = some .unseeded ∧ rejectionCause block 0x0000000000180012 = some .indexRange ∧
    rejectionCause block 0x0000000000170012 = none := by decide

theorem witness_EncodeOfDecode : ∃ i, decode 0x0000000052430103 = .instr i := ⟨.xdWord .ks1 0x5243, by decide⟩

theorem witness_DecodeRejectsBadWords :
    legalOps.lookup ((0x05 : CommandWord).extractLsb' 0 8) = none ∧
    (legalOps.lookup ((0x0000000100000002 : CommandWord).extractLsb' 0 8) = some .ksNext ∧
      (C64.ofWord 0x0000000100000002).unusedZero .ksNext = false) ∧
    (legalOps.lookup ((0x0000000000000102 : CommandWord).extractLsb' 0 8) = some .ksNext ∧
      (C64.ofWord 0x0000000000000102).unusedZero .ksNext = true) := by decide

theorem witness_MaskRowsAgreeWithFields :
    (0x0000000000030011 : CommandWord) &&& Opcode.mask .prOffset = Opcode.pattern .prOffset := by decide

theorem witness_CommandBytesLittleEndian : ([1, 2, 3, 4, 5, 6, 7] : List Byte).length < 8 ∧ (7 : Nat) < 8 := by decide

/-- For each command a word with its `OP` that is the command and one that is not. -/
theorem witness_command_words :
    ((0x00 : CommandWord).extractLsb' 0 8 = 0x00 ∧ (0x0200 : CommandWord).extractLsb' 0 8 = 0x00) ∧
    ((0x0101 : CommandWord).extractLsb' 0 8 = 0x01 ∧ (0x10001 : CommandWord).extractLsb' 0 8 = 0x01) ∧
    ((0x0102 : CommandWord).extractLsb' 0 8 = 0x02 ∧ (0x10002 : CommandWord).extractLsb' 0 8 = 0x02) ∧
    ((0x0103 : CommandWord).extractLsb' 0 8 = 0x03 ∧ (0x0203 : CommandWord).extractLsb' 0 8 = 0x03) ∧
    ((0x10 : CommandWord).extractLsb' 0 8 = 0x10 ∧ (0x0110 : CommandWord).extractLsb' 0 8 = 0x10) ∧
    ((0x30011 : CommandWord).extractLsb' 0 8 = 0x11 ∧ (0x40011 : CommandWord).extractLsb' 0 8 = 0x11) ∧
    ((0x1F0012 : CommandWord).extractLsb' 0 8 = 0x12 ∧ (0x200012 : CommandWord).extractLsb' 0 8 = 0x12) ∧
    ((0xFFFF0020 : CommandWord).extractLsb' 0 8 = 0x20 ∧ (0x0120 : CommandWord).extractLsb' 0 8 = 0x20) ∧
    ((0x21 : CommandWord).extractLsb' 0 8 = 0x21 ∧ (0x0121 : CommandWord).extractLsb' 0 8 = 0x21) := by decide

theorem witness_KsNext_and_XdWord :
    (seededBlock 1 2).seeded0 = true ∧ (seededBlock 1 2).seeded1 = true ∧ block.seeded .ks0 = false ∧
    block.seeded .ks1 = false := by decide

theorem witness_PrSelectCommand : (0x00006000 : Word).extractLsb' 13 5 = (0xFFFC7FFF : Word).extractLsb' 13 5 := by
  decide

theorem witness_PrOffsetCommand : ∃ t t', exec (.prOffset 0x6000 .a) block = .next t ∧
    exec (.prOffset 0x6000 .d) block = .next t' ∧ BlockId.a ≠ .d := ⟨_, _, rfl, rfl, by decide⟩

/-- The indexes where the two clauses meet. -/
theorem witness_PrEntryCommand : (23 : BitVec 5).toNat < 24 ∧ 24 ≤ (24 : BitVec 5).toNat := by decide

/-- The codes at the two ends of RANGE and of OK, for the table of four. -/
theorem witness_CmLookupCommand :
    ((4 : Half) ≠ 0xFFFF ∧ (4 : Half) ≠ 0 ∧ block.charTable.length ≤ (4 : Half).toNat) ∧
    ((0xFFFE : Half) ≠ 0xFFFF ∧ (0xFFFE : Half) ≠ 0 ∧ block.charTable.length ≤ (0xFFFE : Half).toNat) ∧
    ((1 : Half) ≠ 0xFFFF ∧ (1 : Half) ≠ 0 ∧ (1 : Half).toNat < block.charTable.length) ∧
    ((3 : Half) ≠ 0xFFFF ∧ (3 : Half) ≠ 0 ∧ (3 : Half).toNat < block.charTable.length) ∧
    block.tableAs text = ["", "P", "i", "k"] := by decide

theorem witness_CmLenCommand :
    ({ block with charTable := List.replicate 65536 ⟨7⟩ } : State).charTable.length ≤ 65536 :=
  Nat.le_of_eq List.length_replicate

theorem witness_CommandFrame :
    (namedKs (.ksNext .ks0) ≠ some .ks1) ∧ (∀ code, Instr.cmLen ≠ .cmLookup code) ∧
    (∃ t, exec (.ksNext .ks0) block = .next t ∧ t.rej = true) ∧
    (∃ t, exec .cmLen block = .next t ∧ t.rej = false) :=
  ⟨by decide, by simp, ⟨_, rfl, rfl⟩, ⟨_, rfl, rfl⟩⟩

theorem witness_InstancesIndependent : namedKs (.xdWord .ks1 7) ≠ some .ks0 ∧ namedKs .cmLen ≠ some .ks0 := by decide

theorem witness_UnseededStateUnobservable :
    ({ block with port := [.command 0x0102] } : State).seeded .ks1 = false ∧
    (∃ t, step { block with port := [.command 0x0102] } = .next t) ∧
    (∃ r, step { block with port := [.commandEarly 0] } = .refused r) := ⟨by decide, ⟨_, rfl⟩, ⟨_, rfl⟩⟩

theorem witness_TableReadsIdempotent : namedKs (.prEntry 31) = none ∧ namedKs (.cmLookup 0) = none := by decide

theorem witness_PermutationTableWellFormed : Config.permRom[(3 : Fin 24)] = Config.permRom[(3 : Fin 24)] := rfl

theorem witness_LowHalfIsHiddenState : (0x0000FFFF : Word).extractLsb' 0 16 = (0xFFFFFFFF : Word).extractLsb' 0 16 := by
  decide

theorem witness_TextUnitsNeverInspected :
    (∃ t, step { block with port := [.command 0x00020020] } = .next t) ∧
    (∃ r, step { block with port := [.commandEarly 0] } = .refused r) := ⟨⟨_, rfl⟩, ⟨_, rfl⟩⟩

/-- A table of pairs, configured and read back: units of another type than strings (00_scope.md R6). -/
theorem test_unitNames : (unitNames [(1, true), (2, false)]).map (unitsOf [(1, true), (2, false)]) =
    [some (1, true), some (2, false)] := by decide

/-- 48_host_sequences.md R139: the string form of the name of WE-6 is its units in order. -/
theorem test_nameString : Record.nameString text
    { name := [⟨1⟩, ⟨2⟩, ⟨3⟩], level := 50, effort := { hp := 5, atk := 6, dfn := 7, spa := 8, spd := 9, spe := 10 } } =
      "Pik" := by decide

/-- Words of every kind between the seed and the step: the other instance, a table read, a rejected word, a step. -/
theorem witness_KeystreamOfSeed : block.phase ≠ .reloaded ∧
    ∀ cw ∈ ([0x0000000500000101, 0x0102, 0x10, 0xFF, 0x02] : List CommandWord), seedsKs .ks0 cw = false := by
  refine ⟨by decide, ?_⟩
  simp only [List.forall_mem_cons]
  exact ⟨by decide, by decide, by decide, by decide, by decide, by simp⟩

theorem witness_DecryptInLockStep : block.phase ≠ .reloaded ∧ ([7, 8, 9] : List Half)[2]? = some 9 := by decide

theorem witness_XorRoundTrip : block.phase ≠ .reloaded := by decide

theorem witness_XdWordIsKsNextXored : (seededBlock 1 2).seeded .ks1 = true := by decide

theorem witness_ResponsesInIssueOrder : block.phase ≠ .reloaded ∧
    ([0, 5] : List CommandWord) = [0] ++ [5] ∧ ([0] : List CommandWord) ≠ [] ∧ (3 : Nat) < 4 := by decide

/-- A state in the middle of a run, with a text unit held and a rejection recorded. -/
def runningBlock : State :=
  { block with phase := .running, txt := some ⟨3⟩, err := true, ecode := some .unseeded, port := [.command 0x21] }

theorem witness_StepKeepsBlockInv : runningBlock.Inv ∧ ∃ t, step runningBlock = .next t := by
  refine ⟨?_, ⟨_, rfl⟩⟩
  refine ⟨by decide, by decide, by decide, by decide, by decide, by decide, fun h => absurd h (by decide), ?_⟩
  intro _ u hu
  exact ⟨3, by decide, by decide, by rw [← hu]; rfl⟩

theorem witness_ObedientHostNeverStops :
    ({ block with port := [.loadTable [⟨7⟩, ⟨8⟩], .command 1, .command 0xFF, .loadTable [], .reset, .command 2] } :
      State).hostObeys = true := by decide

/-- A host that seeds instance 0, steps it, resets and seeds again before it steps. -/
theorem witness_DutifulHostNeverUnseeded :
    ({ block with port := [.command 1, .command 2, .reset, .command 1, .command 2] } : State).hostKeepsDuties = true ∧
    block.rej = false := by decide

/-- 70_reset_and_hazards.md R184: stepping an instance that a reset left unseeded breaks the duty. -/
theorem test_seedsFirst_after_reset : seedsFirst true true [.command 2, .reset, .command 2] = false := by decide

theorem witness_PartyLengthCheck :
    (List.replicate 1575 (0 : Byte)).length < 0xA0 + 1416 ∧ 0xA0 + 1416 ≤ (List.replicate 1576 (0 : Byte)).length ∧
    block.phase ≠ .reloaded :=
  ⟨by have := length_zeros 1575 0; omega, by have := length_zeros 1576 0; omega, by decide⟩

/-- The hypotheses of the statements about a slot. -/
theorem witness_SlotLevel_EffortValues_Name_AnyTextUnits :
    (List.replicate 236 (0xA5 : Byte)).length = 236 ∧ block.phase ≠ .reloaded := ⟨length_zeros _ _, by decide⟩

/-- The three ways a code stops a name, at the edge of the table of four. -/
theorem witness_SlotName_stop : codeRuns block.charTable 0xFFFF = false ∧ codeRuns block.charTable 0 = false ∧
    codeRuns block.charTable 4 = false ∧ codeRuns block.charTable 3 = true := by decide

theorem witness_DecodeDeterministic : block.phase ≠ .reloaded ∧ (seededBlock 1 2).phase ≠ .reloaded ∧
    block.charTable = (seededBlock 1 2).charTable := by decide

/-- Six blocks in the middle of a run, sharing one table. -/
def sixBlocks : System := List.replicate 6 { seededBlock 1 2 with phase := .running }

theorem sixBlocks_share : (∀ b ∈ sixBlocks, b.phase ≠ .reloaded) ∧ shareTable block.charTable sixBlocks := by
  constructor <;> intro b hb <;> rw [List.eq_of_mem_replicate hb]
  · decide
  · rfl

theorem witness_SlotsOnBlocksApart :
    (List.replicate 1575 (0 : Byte)).length < 0xA0 + 1416 ∧ 0xA0 + 1416 ≤ (List.replicate 1576 (0 : Byte)).length ∧
    block.phase ≠ .reloaded ∧ 6 ≤ sixBlocks.length ∧ (∀ b ∈ sixBlocks, b.phase ≠ .reloaded) ∧
    shareTable block.charTable sixBlocks :=
  ⟨by have := length_zeros 1575 0; omega, by have := length_zeros 1576 0; omega, by decide, by decide,
   sixBlocks_share⟩

/-- Slots out of order, two of them on one block; and the first block number past the system's end. -/
theorem witness_SlotsInAnyOrder :
    0xA0 + 1416 ≤ (List.replicate 1576 (0 : Byte)).length ∧ (∀ b ∈ sixBlocks, b.phase ≠ .reloaded) ∧
    shareTable block.charTable sixBlocks ∧
    (∀ e ∈ ([(5, 0), (0, 5), (3, 0)] : List (Fin 6 × Nat)), e.2 < sixBlocks.length) ∧ sixBlocks.length ≤ 6 :=
  ⟨by have := length_zeros 1576 0; omega, sixBlocks_share.1, sixBlocks_share.2, by decide, by decide⟩

theorem witness_BlocksIndependent : ∃ t, ([seededBlock 1 2, block] : System)[1]? = some block ∧ step block = .next t :=
  ⟨_, rfl, rfl⟩

/-- A line of each pseudo-instruction and of one command. -/
theorem witness_PseudoInstructionsExpand :
    parseInstr "KS.SEEDCHK" [['7']] = some (.ksSeedChk 7) ∧ parseInstr "KS.SEEDPV" [['7']] = some (.ksSeedPv 7) ∧
    parseInstr "KS.SKIP" [['1'], ['2']] = some (.ksSkip 1 2) ∧
    parseInstr "KS.NEXT" [['1']] = some (.ksNext 1) := by decide

/-- A checksum of 17 bits is an assembly error although a seed of that width is none (30_encoding.md R70, R71). -/
theorem test_ksSeedChk_range : assemble (.ksSeedChk 0x10000) = none ∧
    assemble (.ksSeed 0 0x10000) = some [0x0001000000000001] := by decide

end Sys2Proof.Tests
end

/-! ## Independence of the two generators (10_state.md R25)

Replacing one generator's `KS` and `SEEDED` commutes with every operation that does not name the generator, hence with
every command that does not. That it is left unchanged is the same fact with the values it already holds. -/

namespace Sys2Proof.Machine

/-! ### What `withGen` writes and what it leaves -/

section WithGen

variable (s : State) (v : Word) (b : Bool)

@[simp] theorem State.ks_withGen_same (g : KsId) : (s.withGen g v b).ks g = v := by
  cases g <;> rfl

@[simp] theorem State.seeded_withGen_same (g : KsId) : (s.withGen g v b).seeded g = b := by
  cases g <;> rfl

@[simp] theorem State.withGen_charTable (g : KsId) : (s.withGen g v b).charTable = s.charTable := by
  cases g <;> rfl

/-- Giving a generator the values it already holds changes nothing. -/
@[simp] theorem State.withGen_self (g : KsId) : s.withGen g (s.ks g) (s.seeded g) = s := by
  cases g <;> rfl

@[simp] theorem State.setRes_withGen (g : KsId) (r : Word) :
    (s.withGen g v b).setRes r = (s.setRes r).withGen g v b := by
  cases g <;> rfl

@[simp] theorem State.setLookup_withGen (g : KsId) (c : StopCause) (u : Option TextUnit) :
    (s.withGen g v b).setLookup c u = (s.setLookup c u).withGen g v b := by
  cases g <;> rfl

@[simp] theorem State.accept_withGen (g : KsId) : (s.withGen g v b).accept = s.accept.withGen g v b := by
  cases g <;> rfl

@[simp] theorem State.reject_withGen (g : KsId) (c : RejectCode) :
    (s.withGen g v b).reject c = (s.reject c).withGen g v b := by
  cases g <;> rfl

/-! ### Operations on the other generator -/

variable {g h : KsId} (hne : h ≠ g)
include hne

theorem State.ks_withGen_ne : (s.withGen g v b).ks h = s.ks h := by
  cases g <;> cases h <;> trivial

theorem State.seeded_withGen_ne : (s.withGen g v b).seeded h = s.seeded h := by
  cases g <;> cases h <;> trivial

theorem State.setKs_withGen_ne (k : Word) : (s.withGen g v b).setKs h k = (s.setKs h k).withGen g v b := by
  cases g <;> cases h <;> trivial

theorem State.setSeeded_withGen_ne : (s.withGen g v b).setSeeded h = (s.setSeeded h).withGen g v b := by
  cases g <;> cases h <;> trivial

theorem State.stepKs_withGen_ne : (s.withGen g v b).stepKs h = (s.stepKs h).withGen g v b := by
  rw [State.stepKs, State.ks_withGen_ne s v b hne, State.setKs_withGen_ne s v b hne, State.stepKs]

/-- Whether generator `h` is seeded, and so whether it is stepped or the command rejected, does not depend on `g`. -/
theorem State.stepOrReject_withGen_ne (value : Half → Half) :
    (s.withGen g v b).stepOrReject h value = (s.stepOrReject h value).withGen g v b := by
  have hseeded := State.seeded_withGen_ne s v b hne
  cases hs : s.seeded h with
  | true =>
    rw [State.stepOrReject_of_seeded value hs, State.stepOrReject_of_seeded value (hseeded.trans hs),
      State.ks_withGen_ne s v b hne, State.stepKs_withGen_ne s v b hne, State.setRes_withGen, State.accept_withGen]
  | false =>
    rw [State.stepOrReject_of_unseeded value hs, State.stepOrReject_of_unseeded value (hseeded.trans hs),
      State.reject_withGen]

end WithGen

/-! ### Commands -/

/-- A command does not read the generators it does not name, and writes nothing there: replacing such a generator's
values before the command or after it gives the same state. -/
theorem exec_withGen {i : Instr} {g : KsId} {s t : State} (hnamed : namedKs i ≠ some g) (hexec : exec i s = .next t)
    (v : Word) (b : Bool) : exec i (s.withGen g v b) = .next (t.withGen g v b) := by
  have other {h : KsId} (heq : namedKs i = some h) : h ≠ g := fun hg => hnamed (hg ▸ heq)
  cases i with
  | nop =>
    cases hexec
    simp [exec, execNop]
  | ksSeed h seed =>
    cases hexec
    simp [exec, execKsSeed, State.setKs_withGen_ne s v b (other rfl), State.setSeeded_withGen_ne _ v b (other rfl)]
  | ksNext h =>
    cases hexec
    simp [exec, execKsNext, State.stepOrReject_withGen_ne s v b (other rfl)]
  | xdWord h w =>
    cases hexec
    simp [exec, execXdWord, State.stepOrReject_withGen_ne s v b (other rfl)]
  | prSelect pv =>
    cases hexec
    simp [exec, execPrSelect]
  | prOffset pv blk =>
    cases hexec
    simp [exec, execPrOffset]
  | prEntry idx =>
    cases hexec
    by_cases hidx : idx.toNat < 24 <;> simp [exec, execPrEntry, hidx]
  | cmLookup code =>
    cases hexec
    simp [exec, execCmLookup]
  | cmLen =>
    cases hexec
    simp [exec, execCmLen]

/-- A command leaves the generators it does not name as they were. -/
theorem exec_keeps_unnamed_gen {i : Instr} {g : KsId} {s t : State} (hnamed : namedKs i ≠ some g)
    (hexec : exec i s = .next t) : t.ks g = s.ks g ∧ t.seeded g = s.seeded g := by
  have hself : t = t.withGen g (s.ks g) (s.seeded g) := by
    have hcomm := exec_withGen hnamed hexec (s.ks g) (s.seeded g)
    rw [State.withGen_self, hexec] at hcomm
    exact Host.Outcome.next.inj hcomm
  rw [hself]
  exact ⟨State.ks_withGen_same .., State.seeded_withGen_same ..⟩

/-- KS.SEED gives any generator any seed, whatever the state (40_keystream.md R80). -/
theorem exec_ksSeed_seeds (g : KsId) (d : Word) (s : State) :
    ∃ t, exec (.ksSeed g d) s = .next t ∧ t.ks g = d ∧ t.seeded g = true :=
  ⟨_, rfl, by cases g <;> rfl, by cases g <;> rfl⟩

/-- Settles O23: replacing an unnamed generator's values commutes with the command, which is that they are not read;
that they are kept is the case of the values already there. -/
theorem instancesIndependent : Obligations.InstancesIndependent := by
  refine ⟨fun i g s hnamed => ?_, exec_ksSeed_seeds⟩
  obtain ⟨t, hexec⟩ := exec_next i s
  obtain ⟨hks, hseeded⟩ := exec_keeps_unnamed_gen hnamed hexec
  exact ⟨t, hexec, hks, hseeded, exec_withGen hnamed hexec⟩

end Sys2Proof.Machine

/-! ## The encoding (30_encoding.md)

A word is one of three things by its fields: an illegal opcode, a legal one with a must-be-zero field set, or a command.
Its eight bytes are its digits to base 256, and reading them back gives the word. -/

namespace Sys2Proof

/-! ### Match and mask against the field columns -/

/-- Masking with a row's mask keeps `OP` and `Z` whole, and of the other fields the bits the row does not use. -/
theorem C64.ofWord_and_mask (cw : CommandWord) (o : Opcode) :
    C64.ofWord (cw &&& o.mask) =
      { op := (C64.ofWord cw).op, z := (C64.ofWord cw).z,
        g := (C64.ofWord cw).g &&& (C64.ofWord o.mask).g,
        a16 := (C64.ofWord cw).a16 &&& (C64.ofWord o.mask).a16,
        d32 := (C64.ofWord cw).d32 &&& (C64.ofWord o.mask).d32 } := by
  have hop : (C64.ofWord o.mask).op = BitVec.allOnes 8 := by cases o <;> decide
  have hz : (C64.ofWord o.mask).z = BitVec.allOnes 7 := by cases o <;> decide
  rw [C64.ofWord_and, hop, hz, BitVec.and_allOnes, BitVec.and_allOnes]

/-- The columns of R65 marked 0 say that the masked fields are zero. Only PR.OFFSET and PR.ENTRY use a field in part:
bits 1:0 and bits 4:0 of `A16`. -/
theorem C64.unusedZero_iff_and_mask (f : C64) (o : Opcode) :
    f.unusedZero o = true ↔
      f.g &&& (C64.ofWord o.mask).g = 0 ∧ f.z = 0 ∧ f.a16 &&& (C64.ofWord o.mask).a16 = 0 ∧
        f.d32 &&& (C64.ofWord o.mask).d32 = 0 := by
  have hg : f.g &&& 1#1 = f.g := BitVec.and_allOnes
  have ha : f.a16 &&& 0xFFFF#16 = f.a16 := BitVec.and_allOnes
  have hd : f.d32 &&& 0xFFFFFFFF#32 = f.d32 := BitVec.and_allOnes
  have hblk : f.a16 &&& 0xFFFC#16 = 0#16 ↔ f.a16.extractLsb' 2 14 = 0#14 := half_and_highMask f.a16 2 (by decide)
  have hidx : f.a16 &&& 0xFFE0#16 = 0#16 ↔ f.a16.extractLsb' 5 11 = 0#11 := half_and_highMask f.a16 5 (by decide)
  cases o with
  | prOffset => simp [C64.unusedZero, C64.ofWord, Opcode.mask, hg, hblk, and_left_comm, and_assoc]
  | prEntry => simp [C64.unusedZero, C64.ofWord, Opcode.mask, hg, hidx, hd, and_left_comm, and_assoc]
  | _ => simp [C64.unusedZero, C64.ofWord, Opcode.mask, hg, ha, hd, and_left_comm, and_assoc]

/-- A word matches a row exactly when `OP` is the row's and the fields the row does not use are zero
(30_encoding.md R65, R66). -/
theorem and_mask_eq_pattern_iff (cw : CommandWord) (o : Opcode) :
    cw &&& o.mask = o.pattern ↔ cw.extractLsb' 0 8 = o.code ∧ (C64.ofWord cw).unusedZero o = true := by
  rw [← C64.ofWord_inj, C64.ofWord_and_mask, C64.ofWord_pattern, C64.mk.injEq, ← C64.unusedZero_iff_and_mask]
  rfl

/-! ### The three kinds of words -/

@[simp] theorem Instr.opcode_ofFields (f : C64) (o : Opcode) : (Instr.ofFields f o).opcode = o := by
  cases o <;> rfl

theorem lookup_map_code (b : Byte) (os : List Opcode) :
    (os.map fun o => (o.code, o)).lookup b = os.find? fun o => o.code == b := by
  induction os with
  | nil => rfl
  | cons o os ih => rw [List.map_cons, List.lookup_cons, List.find?_cons, BEq.comm, ih]

/-- `legalOps` is the decoder's opcode map. -/
theorem legalOps_lookup (b : Byte) : Machine.legalOps.lookup b = Opcode.ofByte b :=
  lookup_map_code b Opcode.all

theorem decode_of_ofByte_eq_none {cw : CommandWord} (h : Opcode.ofByte (cw.extractLsb' 0 8) = none) :
    decode cw = .reject .illegalOpcode := by
  have hop : Opcode.ofByte (C64.ofWord cw).op = none := h
  rw [decode, hop]

/-- With a legal `OP` the row's must-be-zero fields alone decide. -/
theorem decode_of_ofByte_eq_some {cw : CommandWord} {o : Opcode} (h : Opcode.ofByte (cw.extractLsb' 0 8) = some o) :
    decode cw =
      if (C64.ofWord cw).unusedZero o = true then .instr (Instr.ofFields (C64.ofWord cw) o)
      else .reject .reservedField := by
  have hop : Opcode.ofByte (C64.ofWord cw).op = some o := h
  have hmatch : cw &&& o.mask = o.pattern ↔ (C64.ofWord cw).unusedZero o = true := by
    rw [and_mask_eq_pattern_iff, Opcode.code_of_ofByte h, and_iff_right rfl]
  simp only [decode, hop, hmatch]

/-- Settles O10: the decoder looks `OP` up first; with a legal one, match and mask are the must-be-zero fields. -/
theorem decodeRejectsBadWords : Obligations.DecodeRejectsBadWords := by
  intro cw
  simp only [legalOps_lookup]
  refine ⟨decode_of_ofByte_eq_none, fun o hop hzero => ?_, fun o hop hzero => ?_⟩
  · rw [decode_of_ofByte_eq_some hop, hzero, if_neg Bool.false_ne_true]
  · exact ⟨_, Instr.opcode_ofFields _ o, by rw [decode_of_ofByte_eq_some hop, if_pos hzero]⟩

/-! ### Words as bytes -/

@[simp] theorem length_bytesOf (n v : Nat) : (bytesOf n v).length = n := by
  induction n generalizing v with
  | zero => rfl
  | succ n ih => simp [bytesOf, ih]

/-- Byte `k` of a number is its digit `k` to base 256. -/
theorem getElem?_bytesOf {n k : Nat} (hk : k < n) (v : Nat) :
    (bytesOf n v)[k]? = some (BitVec.ofNat 8 (v / 256 ^ k)) := by
  induction n generalizing k v with
  | zero => omega
  | succ n ih =>
    cases k with
    | zero => simp [bytesOf]
    | succ k =>
      rw [bytesOf, List.getElem?_cons_succ, ih (by omega), Nat.div_div_eq_div_mul, ← Nat.pow_succ']

/-- `n` bytes of a number read back as the number modulo `256 ^ n`. -/
theorem littleEndian_bytesOf (n v : Nat) : littleEndian (bytesOf n v) = v % 256 ^ n := by
  induction n generalizing v with
  | zero => simp [bytesOf, littleEndian, Nat.mod_one]
  | succ n ih =>
    rw [bytesOf, littleEndian, ih, BitVec.toNat_ofNat, (Nat.pow_succ' : 256 ^ (n + 1) = _)]
    exact Nat.mod_mul.symm

@[simp] theorem CommandWord.length_bytes (cw : CommandWord) : (CommandWord.bytes cw).length = 8 :=
  length_bytesOf 8 cw.toNat

@[simp] theorem CommandWord.littleEndian_bytes (cw : CommandWord) :
    littleEndian (CommandWord.bytes cw) = cw.toNat := by
  rw [CommandWord.bytes, littleEndian_bytesOf]
  exact Nat.mod_eq_of_lt cw.isLt

/-- Byte k holds bits 8k+7 : 8k (20_memory.md R47). -/
theorem CommandWord.getElem?_bytes (cw : CommandWord) {k : Nat} (hk : k < 8) :
    (CommandWord.bytes cw)[k]? = some (cw.extractLsb' (8 * k) 8) := by
  rw [CommandWord.bytes, getElem?_bytesOf hk, BitVec.extractLsb', Nat.shiftRight_eq_div_pow, Nat.pow_mul]

/-- The decoder takes a word's eight bytes and leaves the rest (30_encoding.md R60). -/
theorem decodeBytes_bytes_append (cw : CommandWord) (rest : List Byte) :
    decodeBytes (CommandWord.bytes cw ++ rest) = .word (decode cw) rest := by
  have hlen : ¬ (CommandWord.bytes cw ++ rest).length < 8 := by simp
  rw [decodeBytes, if_neg hlen, List.take_left' (CommandWord.length_bytes cw),
    List.drop_left' (CommandWord.length_bytes cw), CommandWord.littleEndian_bytes, BitVec.ofNat_toNat,
    BitVec.setWidth_eq]

theorem decodeBytes_of_length_lt {bs : List Byte} (h : bs.length < 8) : decodeBytes bs = .incomplete :=
  if_pos h

/-- A word is put together again from its two 32-bit halves, bits 31:0 first (20_memory.md R47). -/
theorem CommandWord.ofHalves_halves (cw : CommandWord) :
    CommandWord.ofHalves (cw.extractLsb' 0 32) (cw.extractLsb' 32 32) = cw := by
  ext i hi
  simp only [CommandWord.ofHalves, zext64, BitVec.getElem_or, BitVec.getElem_shiftLeft, BitVec.getElem_setWidth,
    BitVec.getLsbD_extractLsb']
  grind

/-- Settles O12: the bytes are the word's digits to base 256, and eight of them read back as the word. -/
theorem commandBytesLittleEndian : Obligations.CommandBytesLittleEndian :=
  ⟨decodeBytes_bytes_append, fun cw _ => CommandWord.getElem?_bytes cw, fun _ => decodeBytes_of_length_lt,
    CommandWord.ofHalves_halves⟩

end Sys2Proof

/-! ## The assembler's pseudo-instructions (30_encoding.md R70, R71) -/

namespace Sys2Proof.Machine

/-- The mnemonic that writes an assembler instruction: its command's own, or one of the three of R71. -/
def asmMnemonic : AsmInstr → String
  | .nop          => opcodeMnemonic .nop
  | .ksSeed _ _   => opcodeMnemonic .ksSeed
  | .ksNext _     => opcodeMnemonic .ksNext
  | .xdWord _ _   => opcodeMnemonic .xdWord
  | .prSelect _   => opcodeMnemonic .prSelect
  | .prOffset _ _ => opcodeMnemonic .prOffset
  | .prEntry _    => opcodeMnemonic .prEntry
  | .cmLookup _   => opcodeMnemonic .cmLookup
  | .cmLen        => opcodeMnemonic .cmLen
  | .ksSeedChk _  => "KS.SEEDCHK"
  | .ksSeedPv _   => "KS.SEEDPV"
  | .ksSkip _ _   => "KS.SKIP"

/-- The parser gives an instruction only for that instruction's mnemonic. -/
theorem mnemonic_of_parseInstr {mnemonic : String} {ops : List (List Char)} {a : AsmInstr}
    (h : parseInstr mnemonic ops = some a) : mnemonic = asmMnemonic a := by
  match ops with
  | [] =>
    simp only [parseInstr] at h
    split_ifs at h with hm hm <;> cases h <;> exact hm
  | [x] =>
    simp only [parseInstr] at h
    split_ifs at h with hm hm hm hm hm hm
    all_goals
      obtain ⟨n, -, rfl⟩ := Option.map_eq_some_iff.mp h
      exact hm
  | [x, y] =>
    simp only [parseInstr] at h
    split_ifs at h with hm hm hm hm
    all_goals
      obtain ⟨m, -, hy⟩ := Option.bind_eq_some_iff.mp h
      obtain ⟨n, -, rfl⟩ := Option.map_eq_some_iff.mp hy
      exact hm
  | _ :: _ :: _ :: _ => cases h

/-- An instruction is one of the three pseudo-instructions, or it is one command with that command's mnemonic. -/
theorem pseudo_or_one_command (a : AsmInstr) :
    (∃ chk, a = .ksSeedChk chk) ∨ (∃ pv, a = .ksSeedPv pv) ∨ (∃ g n, a = .ksSkip g n) ∨
      ∃ i, expandAsm a = [i] ∧ asmMnemonic a = opcodeMnemonic i.opcode := by
  cases a with
  | ksSeedChk chk => exact .inl ⟨chk, rfl⟩
  | ksSeedPv pv => exact .inr (.inl ⟨pv, rfl⟩)
  | ksSkip g n => exact .inr (.inr (.inl ⟨g, n, rfl⟩))
  | _ => exact .inr (.inr (.inr ⟨_, rfl, rfl⟩))

/-- The checksum is the seed of generator 0, but it has 16 bits where a seed has 32. -/
theorem assemble_ksSeedChk (chk : Nat) :
    assemble (.ksSeedChk chk) = if chk ≤ 0xFFFF then assemble (.ksSeed 0 chk) else none := by
  by_cases hchk : chk ≤ 0xFFFF
  · have hseed : zext32 (BitVec.ofNat 16 chk) = BitVec.ofNat 32 chk := by bv_omega
    have hfits : (AsmInstr.ksSeedChk chk).wellFormed = (AsmInstr.ksSeed 0 chk).wellFormed := by
      simp [AsmInstr.wellFormed, fitsBits]; omega
    rw [if_pos hchk, assemble, assemble, hfits, expandAsm, expandAsm, hseed]
    rfl
  · have hfits : (AsmInstr.ksSeedChk chk).wellFormed = false := by
      simp [AsmInstr.wellFormed, fitsBits]; omega
    simp [assemble, hfits, hchk]

theorem assemble_ksSeedPv (pv : Nat) : assemble (.ksSeedPv pv) = assemble (.ksSeed 1 pv) := rfl

theorem assemble_ksSkip (g n : Nat) :
    assemble (.ksSkip g n) = (assemble (.ksNext g)).map fun ws => (List.replicate n ws).flatten := by
  have hfits : (AsmInstr.ksSkip g n).wellFormed = (AsmInstr.ksNext g).wellFormed := rfl
  rw [assemble, assemble, hfits]
  split
  · simp [expandAsm]
  · rfl

/-- Settles O44: the three expansions, and the parser gives nothing else that is not one command. -/
theorem pseudoInstructionsExpand : Obligations.PseudoInstructionsExpand := by
  refine ⟨assemble_ksSeedChk, assemble_ksSeedPv, assemble_ksSkip, fun mnemonic ops a h => ?_⟩
  rw [mnemonic_of_parseInstr h]
  obtain ⟨chk, rfl⟩ | ⟨pv, rfl⟩ | ⟨g, n, rfl⟩ | hone := pseudo_or_one_command a
  · exact .inl ⟨rfl, chk, rfl⟩
  · exact .inr (.inl ⟨rfl, pv, rfl⟩)
  · exact .inr (.inr (.inl ⟨rfl, g, n, rfl⟩))
  · exact .inr (.inr (.inr hone))

end Sys2Proof.Machine

/-! ## The keystream commands (40_keystream.md)

KS.SEED and KS.NEXT by themselves, then a seeded generator in a run of any words: only the words that step it move it,
each by one `lcg`. -/

namespace Sys2Proof

/-! ### Decoding a word by its `OP` -/

/-- The field `G` as the bit it is: bit 8 of the word (30_encoding.md R61, R64). -/
theorem KsId.ofBit_g (cw : CommandWord) :
    KsId.ofBit (C64.ofWord cw).g = if cw.getLsbD 8 then .ks1 else .ks0 := by
  have hbit (b : BitVec 1) : KsId.ofBit b = if b.getLsbD 0 then .ks1 else .ks0 := by revert b; decide
  rw [hbit, C64.ofWord, BitVec.getLsbD_extractLsb']
  rfl

/-- Once `OP` is the row's, a word matches the row exactly when the fields the row does not use are zero. -/
theorem and_mask_eq_pattern_iff_of_op {cw : CommandWord} {o : Opcode} (hop : cw.extractLsb' 0 8 = o.code) :
    cw &&& o.mask = o.pattern ↔ (C64.ofWord cw).unusedZero o = true := by
  rw [and_mask_eq_pattern_iff, and_iff_right hop]

/-- A word with a row's `OP` is that row's command if it matches the row, and is rejected otherwise. -/
theorem decode_of_op {cw : CommandWord} {o : Opcode} (hop : cw.extractLsb' 0 8 = o.code) :
    decode cw =
      if cw &&& o.mask = o.pattern then .instr (Instr.ofFields (C64.ofWord cw) o) else .reject .reservedField := by
  have hlegal : Opcode.ofByte (cw.extractLsb' 0 8) = some o := by rw [hop, Opcode.ofByte_code]
  simp only [decode_of_ofByte_eq_some hlegal, and_mask_eq_pattern_iff_of_op hop]

/-! ### Decoding the word of a command -/

theorem Instr.unusedZero_fields (i : Instr) : i.fields.unusedZero i.opcode = true := by
  cases i with
  | nop => exact Laws.UnusedFieldsZero.nop
  | ksSeed g seed => exact Laws.UnusedFieldsZero.ksSeed g seed
  | ksNext g => exact Laws.UnusedFieldsZero.ksNext g
  | xdWord g w => exact Laws.UnusedFieldsZero.xdWord g w
  | prSelect pv => exact Laws.UnusedFieldsZero.prSelect pv
  | prOffset pv blk => exact Laws.UnusedFieldsZero.prOffset pv blk
  | prEntry idx => exact Laws.UnusedFieldsZero.prEntry idx
  | cmLookup code => exact Laws.UnusedFieldsZero.cmLookup code
  | cmLen => exact Laws.UnusedFieldsZero.cmLen

/-- The operands are read back from the fields they are written to (30_encoding.md R63). -/
theorem Instr.ofFields_fields (i : Instr) : Instr.ofFields i.fields i.opcode = i := by
  cases i with
  | prOffset pv blk => cases blk <;> rfl
  | prEntry idx => exact congrArg Instr.prEntry (by revert idx; decide)
  | _ => simp [Instr.fields, Instr.opcode, Instr.ofFields]

theorem decode_encode (i : Instr) : decode (encode i) = .instr i := by
  have hfields : C64.ofWord (encode i) = i.fields := C64.ofWord_toWord i.fields
  have hop : i.fields.op = i.opcode.code := by cases i <;> rfl
  have hlegal : Opcode.ofByte ((encode i).extractLsb' 0 8) = some i.opcode := by
    rw [← Opcode.ofByte_code i.opcode, ← hop, ← hfields]
    rfl
  rw [decode_of_ofByte_eq_some hlegal, hfields, if_pos i.unusedZero_fields, i.ofFields_fields]

end Sys2Proof

namespace Sys2Proof.Machine

/-! ### KS.SEED and KS.NEXT -/

/-- Settles O14: the decoding is the opcode's row, and `exec` is the record update itself. -/
theorem ksSeedCommand : Obligations.KsSeedCommand := by
  refine ⟨fun cw hop => ⟨?_, ?_⟩, fun s d => ⟨rfl, rfl⟩, ?_⟩
  · refine (and_mask_eq_pattern_iff_of_op (o := .ksSeed) hop).trans ?_
    simp [C64.unusedZero, C64.ofWord]
  · refine (decode_of_op (o := .ksSeed) hop).trans ?_
    rw [Instr.ofFields, KsId.ofBit_g]
    rfl
  · have hword : (0x0000123400000001 : CommandWord) = encode (.ksSeed .ks0 0x1234) := by decide
    rw [step_withCommand, takeWord, hword, decode_encode]
    exact ⟨_, rfl, rfl, rfl⟩

/-- Stepping generator 0 as a record update: its `KS`, the result and acceptance, and no other register. -/
theorem State.stepOrReject_ks0 {s : State} (value : Half → Half) (h : s.seeded0 = true) :
    s.stepOrReject .ks0 value =
      { s with ks0 := lcg s.ks0, res := zext32 (value (keystreamWord (lcg s.ks0))), rej := false } := by
  rw [State.stepOrReject_of_seeded (g := .ks0) value h, State.stepKs, State.ks, State.setKs,
    State.setRes, State.accept]

/-- The same for generator 1. -/
theorem State.stepOrReject_ks1 {s : State} (value : Half → Half) (h : s.seeded1 = true) :
    s.stepOrReject .ks1 value =
      { s with ks1 := lcg s.ks1, res := zext32 (value (keystreamWord (lcg s.ks1))), rej := false } := by
  rw [State.stepOrReject_of_seeded (g := .ks1) value h, State.stepKs, State.ks, State.setKs,
    State.setRes, State.accept]

/-- Settles O15: the decoding is the opcode's row; whether the generator is seeded decides between one generator step
and the rejection. -/
theorem ksNextCommand : Obligations.KsNextCommand := by
  refine ⟨fun cw hop => ⟨?_, ?_⟩, fun s h => ?_, fun s h => ?_, fun s g h => ?_, fun s => ?_⟩
  · refine (and_mask_eq_pattern_iff_of_op (o := .ksNext) hop).trans ?_
    simp [C64.unusedZero, C64.ofWord, and_assoc]
  · refine (decode_of_op (o := .ksNext) hop).trans ?_
    rw [Instr.ofFields, KsId.ofBit_g]
    rfl
  · simp only [exec, execKsNext, State.stepOrReject_ks0 _ h, lcg, keystreamWord]
  · simp only [exec, execKsNext, State.stepOrReject_ks1 _ h, lcg, keystreamWord]
  · rw [exec, execKsNext, State.stepOrReject_of_unseeded _ h, State.reject]
  · obtain ⟨hks, hres⟩ : lcg 0 = 0x00006073 ∧ zext32 (keystreamWord (lcg 0)) = 0x00000000 := by decide
    obtain ⟨hks', hres'⟩ : lcg (lcg 0) = 0xE97E7B6A ∧ zext32 (keystreamWord (lcg (lcg 0))) = 0x0000E97E := by
      decide
    exact ⟨_, _, _, rfl, congrArg Host.Outcome.next (State.stepOrReject_ks0 _ rfl), hks, hres,
      congrArg Host.Outcome.next (State.stepOrReject_ks0 _ rfl), hks', hres'⟩

/-! ### A seeded generator in a run -/

/-- Generator `g` is seeded and holds `k`, in a run that no table change has spoilt. -/
structure State.HoldsKs (s : State) (g : KsId) (k : Word) : Prop where
  phase_ne : s.phase ≠ .reloaded
  seeded : s.seeded g = true
  ks_eq : s.ks g = k

section HoldsKs

variable {s t : State} {g : KsId} {k : Word}

theorem State.HoldsKs.reject (h : s.HoldsKs g k) (c : RejectCode) : (s.reject c).HoldsKs g k := by
  obtain ⟨hphase, hseeded, hks⟩ := h
  cases g <;> exact ⟨hphase, hseeded, hks⟩

theorem State.HoldsKs.setRunning (h : s.HoldsKs g k) : State.HoldsKs { s with phase := .running } g k := by
  obtain ⟨-, hseeded, hks⟩ := h
  cases g <;> exact ⟨RunPhase.noConfusion, hseeded, hks⟩

/-- A seeded generator moves on by one `lcg`, and its new keystream word makes the result (40_keystream.md R82). -/
theorem State.HoldsKs.stepOrReject (h : s.HoldsKs g k) (value : Half → Half) :
    (s.stepOrReject g value).HoldsKs g (lcg k) ∧
      (s.stepOrReject g value).res = zext32 (value (keystreamWord (lcg k))) := by
  obtain ⟨hphase, hseeded, rfl⟩ := h
  rw [State.stepOrReject_of_seeded value hseeded, State.stepKs]
  generalize lcg (s.ks g) = k
  cases g <;> exact ⟨⟨hphase, hseeded, rfl⟩, rfl⟩

theorem State.stepOrReject_phase (s : State) (g : KsId) (value : Half → Half) :
    (s.stepOrReject g value).phase = s.phase := by
  cases hs : s.seeded g with
  | true => simp [State.stepOrReject_of_seeded value hs, State.stepKs]
  | false => simp [State.stepOrReject_of_unseeded value hs]

/-- No command moves the run between its phases. -/
theorem exec_keeps_phase {i : Instr} (hexec : exec i s = .next t) : t.phase = s.phase := by
  cases i with
  | ksSeed g seed =>
    cases hexec
    simp
  | ksNext g =>
    cases hexec
    exact s.stepOrReject_phase g _
  | xdWord g w =>
    cases hexec
    exact s.stepOrReject_phase g _
  | prEntry idx =>
    cases hexec
    split <;> rfl
  | _ =>
    cases hexec
    rfl

/-- Only a command that names `g` steps it. -/
theorem stepsKs_of_not_named {cw : CommandWord} {i : Instr} (hdecode : decode cw = .instr i)
    (hnamed : namedKs i ≠ some g) : stepsKs g cw = false := by
  cases i with
  | ksNext g' => simpa [stepsKs, hdecode, namedKs] using hnamed
  | xdWord g' w => simpa [stepsKs, hdecode, namedKs] using hnamed
  | _ => simp [stepsKs, hdecode]

/-- The word may be anything but a KS.SEED naming `g`: rejected, a command that steps `g`, or one that does not name
it (40_keystream.md R83). -/
theorem takeWord_holdsKs {cw : CommandWord} (h : s.HoldsKs g k) (hseeds : seedsKs g cw = false)
    (htake : takeWord cw s = .next t) : t.HoldsKs g (if stepsKs g cw then lcg k else k) := by
  cases hdecode : decode cw with
  | reject c =>
    have hsteps : stepsKs g cw = false := by simp [stepsKs, hdecode]
    simp only [takeWord, hdecode] at htake
    cases htake
    rw [hsteps]
    exact h.reject c
  | instr i =>
    simp only [takeWord, hdecode] at htake
    by_cases hnamed : namedKs i = some g
    · cases i with
      | ksSeed g' seed =>
        cases hnamed
        simp [seedsKs, hdecode] at hseeds
      | ksNext g' =>
        cases hnamed
        cases htake
        simpa [stepsKs, hdecode] using (h.stepOrReject _).1
      | xdWord g' w =>
        cases hnamed
        cases htake
        simpa [stepsKs, hdecode] using (h.stepOrReject _).1
      | _ => cases hnamed
    · obtain ⟨hks, hseeded⟩ := exec_keeps_unnamed_gen hnamed htake
      rw [stepsKs_of_not_named hdecode hnamed]
      exact ⟨exec_keeps_phase htake ▸ h.phase_ne, hseeded.trans h.seeded, hks.trans h.ks_eq⟩

theorem runWords_cons {cw : CommandWord} {cws : List CommandWord} {rs : List Response} {u : State}
    (hissue : issue cw s = .next t) (hrun : runWords cws t = .next (rs, u)) :
    runWords (cw :: cws) s = .next (t.response :: rs, u) := by
  simp only [runWords, hissue, hrun]

theorem issue_encode (i : Instr) (hphase : s.phase ≠ .reloaded) :
    issue (encode i) s = exec i { s with phase := .running } := by
  rw [issue_eq hphase, takeWord, decode_encode]

/-- A run without a new seed for `g` steps it once for each of its words that step it. -/
theorem runWords_holdsKs (cws : List CommandWord) (h : s.HoldsKs g k)
    (hseeds : ∀ cw ∈ cws, seedsKs g cw = false) :
    ∃ rs t, runWords cws s = .next (rs, t) ∧ t.HoldsKs g (lcgIter (cws.countP (stepsKs g)) k) := by
  induction cws generalizing s k with
  | nil => exact ⟨[], s, rfl, h⟩
  | cons cw cws ih =>
    obtain ⟨hcw, hcws⟩ := List.forall_mem_cons.mp hseeds
    obtain ⟨t, hissue⟩ := issue_next (cw := cw) h.phase_ne
    have ht := takeWord_holdsKs h.setRunning hcw (issue_eq h.phase_ne ▸ hissue)
    obtain ⟨rs, u, hrun, hu⟩ := ih ht hcws
    refine ⟨t.response :: rs, u, runWords_cons hissue hrun, ?_⟩
    cases hsteps : stepsKs g cw <;> simpa [hsteps, lcgIter] using hu

/-- KS.SEED begins the stream (40_keystream.md R80). -/
theorem issue_ksSeed_holdsKs (g : KsId) (seed : Word) (hphase : s.phase ≠ .reloaded) :
    ∃ t, issue (encode (.ksSeed g seed)) s = .next t ∧ t.HoldsKs g seed := by
  obtain ⟨t, hexec, hks, hseeded⟩ := exec_ksSeed_seeds g seed { s with phase := .running }
  have hrunning : t.phase = .running := exec_keeps_phase hexec
  exact ⟨t, (issue_encode _ hphase).trans hexec, by simp [hrunning], hseeded, hks⟩

/-- A command that steps a seeded generator, alone: the generator's next state and the result from its word. -/
theorem runWords_step_holdsKs {i : Instr} {value : Half → Half} (h : s.HoldsKs g k)
    (hexec : ∀ s, exec i s = .next (s.stepOrReject g value)) :
    ∃ r u, runWords [encode i] s = .next ([r], u) ∧ u.ks g = lcg k ∧
      r.res = zext32 (value (keystreamWord (lcg k))) := by
  obtain ⟨hu, hres⟩ := h.setRunning.stepOrReject value
  exact ⟨_, _, runWords_cons ((issue_encode i h.phase_ne).trans (hexec _)) rfl, hu.ks_eq, hres⟩

end HoldsKs

/-- Settles O28: after the seed and any words the generator holds `lcg^m` of the seed, and one step more is `n = m + 1`
for KS.NEXT and XD.WORD alike. -/
theorem keystreamOfSeed : Obligations.KeystreamOfSeed := by
  intro g seed cws s hphase hseeds
  obtain ⟨s₁, hissue, hs₁⟩ := issue_ksSeed_holdsKs g seed hphase
  obtain ⟨rs, t, hrun, ht⟩ := runWords_holdsKs cws hs₁ hseeds
  simp only [keystream, lcgIter_succ]
  exact ⟨s₁.response :: rs, t, runWords_cons hissue hrun, ht.ks_eq,
    runWords_step_holdsKs ht (value := fun k => k) fun _ => rfl,
    fun w => runWords_step_holdsKs ht (value := fun k => w ^^^ k) fun _ => rfl⟩

end Sys2Proof.Machine

/-! ## The stream decryptor (41_xor_decrypt.md)

XD.WORD by itself, then a list of words under a seed: the i-th result is the i-th word XOR `k_(i+1)` of the seed, so
doing it twice gives the words back. -/

namespace Sys2Proof.Machine

/-! ### XD.WORD -/

/-- Settles O16: the decoding is the opcode's row; whether the generator is seeded decides between one generator step
and the rejection. -/
theorem xdWordCommand : Obligations.XdWordCommand := by
  refine ⟨fun cw hop => ⟨?_, ?_⟩, fun s w h => ?_, fun s w h => ?_, fun s g w h => ?_, fun s => ?_⟩
  · refine (and_mask_eq_pattern_iff_of_op (o := .xdWord) hop).trans ?_
    simp [C64.unusedZero, C64.ofWord]
  · refine (decode_of_op (o := .xdWord) hop).trans ?_
    rw [Instr.ofFields, KsId.ofBit_g]
    rfl
  · simp only [exec, execXdWord, State.stepOrReject_ks0 _ h, lcg, keystreamWord]
  · simp only [exec, execXdWord, State.stepOrReject_ks1 _ h, lcg, keystreamWord]
  · rw [exec, execXdWord, State.stepOrReject_of_unseeded _ h, State.reject]
  · obtain ⟨hres₁, hres₂, hres₃⟩ : zext32 (0x0000 ^^^ keystreamWord (lcg 0)) = 0x00000000 ∧
        zext32 (0xE97E ^^^ keystreamWord (lcg (lcg 0))) = 0x00000000 ∧
        zext32 (0x5243 ^^^ keystreamWord (lcg (lcg (lcg 0)))) = 0x00000032 := by decide
    exact ⟨_, _, _, _, rfl, congrArg Host.Outcome.next (State.stepOrReject_ks1 _ rfl), hres₁,
      congrArg Host.Outcome.next (State.stepOrReject_ks1 _ rfl), hres₂,
      congrArg Host.Outcome.next (State.stepOrReject_ks1 _ rfl), hres₃⟩

/-- Settles O31: both commands step the generator and write a result made from its new word, and widening to 32 bits
goes through the XOR. -/
theorem xdWordIsKsNextXored : Obligations.XdWordIsKsNextXored := by
  intro g w s hseeded
  refine ⟨_, rfl, ?_⟩
  rw [exec, execXdWord, State.stepOrReject_of_seeded _ hseeded, State.stepOrReject_of_seeded _ hseeded, zext32,
    BitVec.setWidth_xor]
  rfl

/-! ### A stream of words -/

@[simp] theorem State.rejBit_response (s : State) : s.response.rejBit = s.rej := by
  rw [State.response, Response.rejBit, State.st]
  simp only [BitVec.getLsbD_append]
  simp [flagBit]

section DecryptStream

variable {s t : State} {g : KsId} {k : Word}

/-- A command that is accepted does not fail the host (48_host_sequences.md R145). -/
theorem issueOrFail_of_accepted {i : Instr} (hphase : s.phase ≠ .reloaded)
    (hexec : exec i { s with phase := .running } = .next t) (hrej : t.rej = false) : issueOrFail i s = .ok t := by
  simp [issueOrFail, issue_encode i hphase, hexec, hrej]

theorem issueOrFail_ksSeed_holdsKs (g : KsId) (seed : Word) (hphase : s.phase ≠ .reloaded) :
    ∃ t, issueOrFail (.ksSeed g seed) s = .ok t ∧ t.HoldsKs g seed := by
  obtain ⟨t, hissue, ht⟩ := issue_ksSeed_holdsKs g seed hphase
  have hexec := (issue_encode _ hphase).symm.trans hissue
  have hrej : t.rej = false := by cases hexec; rfl
  exact ⟨t, issueOrFail_of_accepted hphase hexec hrej, ht⟩

theorem issueOrFail_xdWord_holdsKs (w : Half) (h : s.HoldsKs g k) :
    ∃ t, issueOrFail (.xdWord g w) s = .ok t ∧ t.HoldsKs g (lcg k) ∧
      t.response.res.setWidth 16 = w ^^^ keystreamWord (lcg k) := by
  obtain ⟨ht, hres⟩ := h.setRunning.stepOrReject (w ^^^ ·)
  refine ⟨_, issueOrFail_of_accepted h.phase_ne rfl ?_, ht, ?_⟩
  · rw [State.stepOrReject_of_seeded _ h.setRunning.seeded, State.accept_rej]
  · rw [State.response, hres]
    simp

theorem decryptWords_cons {w : Half} {ws rs : List Half} {u : State} (hissue : issueOrFail (.xdWord g w) s = .ok t)
    (hrun : decryptWords g ws t = .ok (rs, u)) :
    decryptWords g (w :: ws) s = .ok (t.response.res.setWidth 16 :: rs, u) := by
  simp only [decryptWords, hissue, hrun, bind, Except.bind]
  rfl

/-- Words on a generator that holds `k` are XORed with the keystream of `k` in order, one step each. -/
theorem decryptWords_holdsKs (ws : List Half) (h : s.HoldsKs g k) :
    ∃ t, decryptWords g ws s = .ok (ws.mapIdx fun i w => w ^^^ keystream (i + 1) k, t) ∧
      t.HoldsKs g (lcgIter ws.length k) := by
  induction ws generalizing s k with
  | nil => exact ⟨s, rfl, h⟩
  | cons w ws ih =>
    obtain ⟨t, hissue, ht, hres⟩ := issueOrFail_xdWord_holdsKs w h
    obtain ⟨u, hrun, hu⟩ := ih ht
    refine ⟨u, ?_, hu⟩
    rw [decryptWords_cons hissue hrun, hres, List.mapIdx_cons]
    rfl

/-- Under a seed the i-th word is XORed with the i-th keystream word (41_xor_decrypt.md R92). -/
theorem decryptStream_eq_mapIdx (g : KsId) (seed : Word) (ws : List Half) (hphase : s.phase ≠ .reloaded) :
    ∃ t, decryptStream g seed ws s = .ok (ws.mapIdx fun i w => w ^^^ keystream (i + 1) seed, t) ∧
      t.HoldsKs g (lcgIter ws.length seed) := by
  obtain ⟨t, hissue, ht⟩ := issueOrFail_ksSeed_holdsKs g seed hphase
  obtain ⟨u, hrun, hu⟩ := decryptWords_holdsKs ws ht
  refine ⟨u, ?_, hu⟩
  rw [decryptStream, hissue]
  exact hrun

end DecryptStream

/-- XOR with a word at each place is its own inverse. -/
theorem mapIdx_xor_mapIdx_xor {n : Nat} (f : Nat → BitVec n) (ws : List (BitVec n)) :
    ((ws.mapIdx fun i w => w ^^^ f i).mapIdx fun i w => w ^^^ f i) = ws := by
  rw [List.mapIdx_mapIdx]
  refine List.ext_getElem? fun i => ?_
  simp [Function.comp_def]

/-- Settles O30: both times the word at each place meets the same keystream word. -/
theorem xorRoundTrip : Obligations.XorRoundTrip := by
  intro g seed ws s hphase
  obtain ⟨t, hfirst, ht⟩ := decryptStream_eq_mapIdx g seed ws hphase
  obtain ⟨u, hsecond, -⟩ := decryptStream_eq_mapIdx g seed (ws.mapIdx fun i w => w ^^^ keystream (i + 1) seed)
    ht.phase_ne
  rw [mapIdx_xor_mapIdx_xor fun i => keystream (i + 1) seed] at hsecond
  exact ⟨_, t, u, hfirst, hsecond⟩

end Sys2Proof.Machine

/-! ## The block permutation (42_permutation.md)

What the selector and the table are: the selector is bits 17:13 of the personality folded into 0..23, and each row of
the table gives the four blocks four different positions. The three commands return these values. -/

namespace Sys2Proof.Machine

/-! ### The table (R100-R102) -/

theorem permRom_perm (k : Fin 24) :
    List.Perm ([BlockId.a, .b, .c, .d].map fun blk => (pos Config.permRom[k] blk).toNat) [0, 1, 2, 3] := by
  revert k
  decide

theorem permRom_injective {k k' : Fin 24} (h : Config.permRom[k] = Config.permRom[k']) : k = k' := by
  revert k k'
  decide

/-- Settles O26: a check of the 24 rows, and of their pairs. -/
theorem permutationTableWellFormed : Obligations.PermutationTableWellFormed :=
  ⟨permRom_perm, fun _ _ => permRom_injective⟩

/-- Within one row different blocks have different positions, a permutation having no repetition. -/
theorem pos_permRom_injective (k : Fin 24) : Function.Injective (pos Config.permRom[k]) := by
  have hnodup : ([BlockId.a, .b, .c, .d].map fun blk => (pos Config.permRom[k] blk).toNat).Nodup :=
    (permRom_perm k).nodup_iff.mpr (by decide)
  have hmem (blk : BlockId) : blk ∈ [BlockId.a, .b, .c, .d] := by cases blk <;> decide
  exact fun blk blk' hpos =>
    List.inj_on_of_nodup_map hnodup (hmem blk) (hmem blk') (congrArg BitVec.toNat hpos)

/-! ### Block offsets (R105) -/

theorem blockOffset_cases (e : Byte) (blk : BlockId) :
    blockOffset e blk = 8 ∨ blockOffset e blk = 40 ∨ blockOffset e blk = 72 ∨ blockOffset e blk = 104 := by
  have hcases (p : BitVec 2) : 8 + 32 * zext32 p = 8 ∨ 8 + 32 * zext32 p = 40 ∨ 8 + 32 * zext32 p = 72 ∨
      8 + 32 * zext32 p = 104 := by revert p; decide
  exact hcases (pos e blk)

/-- The offset determines the position. -/
theorem blockOffset_eq_iff (e : Byte) (blk blk' : BlockId) :
    blockOffset e blk = blockOffset e blk' ↔ pos e blk = pos e blk' := by
  have hinj (p p' : BitVec 2) : 8 + 32 * zext32 p = 8 + 32 * zext32 p' ↔ p = p' := by revert p p'; decide
  exact hinj (pos e blk) (pos e blk')

theorem blockOffset_permRom_injective (k : Fin 24) : Function.Injective (blockOffset Config.permRom[k]) :=
  fun blk blk' h => pos_permRom_injective k ((blockOffset_eq_iff _ blk blk').mp h)

/-! ### The selector (00_scope.md R11) -/

/-- The mask and shift of R11 take out bits 17:13. -/
theorem selector_field (d : Word) : (d &&& 0x0003E000) >>> 13 = zext32 (d.extractLsb' 13 5) := by
  apply BitVec.eq_of_toNat_eq
  have hfield : d.toNat >>> 13 &&& 31 = d.toNat >>> 13 % 32 := Nat.and_two_pow_sub_one_eq_mod _ 5
  have hlt : d.toNat >>> 13 % 32 < 2 ^ 32 := by omega
  simpa [Nat.shiftRight_and_distrib, hfield] using (Nat.mod_eq_of_lt hlt).symm

theorem sel_congr {d d' : Word} (h : d.extractLsb' 13 5 = d'.extractLsb' 13 5) : sel d = sel d' := by
  simp only [sel, selector_field, h]

/-- As a word the selector is the remainder R104 computes. -/
theorem ofNat_sel (d : Word) : BitVec.ofNat 32 (sel d).val = ((d &&& 0x0003E000) >>> 13) % 24 := by
  apply BitVec.eq_of_toNat_eq
  have hlt := (sel d).isLt
  rw [BitVec.toNat_ofNat, Nat.mod_eq_of_lt (by omega), BitVec.toNat_umod]
  rfl

/-! ### Fields of a command word and of `ST` -/

/-- A field of a field is a field of the whole: the operands that fill `A16` in part are bits of the word. -/
theorem extractLsb'_extractLsb' {w start start' len len' : Nat} (x : BitVec w) (h : start + len ≤ len') :
    (x.extractLsb' start' len').extractLsb' start len = x.extractLsb' (start' + start) len := by
  ext i hi
  have hin : start + i < len' := by omega
  simp [hin, Nat.add_assoc]

/-- `ST.ECODE` is bits 7:4, above the four one-bit fields (10_state.md R29). -/
theorem State.st_ecode (s : State) : s.st.extractLsb' 4 4 = ecodeBits s.ecode := by
  rw [State.st, BitVec.extractLsb'_append_eq_of_le (by decide), BitVec.extractLsb'_append_eq_of_le (by decide),
    BitVec.extractLsb'_append_eq_of_le (by decide), BitVec.extractLsb'_append_eq_of_le (by decide)]
  exact BitVec.extractLsb'_append_eq_right

/-! ### The commands -/

/-- Settles O17: the decoding is the opcode's row, and the result is the selector. -/
theorem prSelectCommand : Obligations.PrSelectCommand := by
  refine ⟨fun cw hop => ⟨?_, decode_of_op (o := .prSelect) hop⟩, fun s d => ?_, fun d => ?_, fun d d' => sel_congr,
    fun s => ?_, fun s => ?_⟩
  · refine (and_mask_eq_pattern_iff_of_op (o := .prSelect) hop).trans ?_
    simp [C64.unusedZero, C64.ofWord, and_left_comm, and_assoc]
  · rw [← ofNat_sel]
    rfl
  · rw [BitVec.toNat_umod]
    exact Nat.mod_lt _ (by decide)
  · have hsel : BitVec.ofNat 32 (sel 0x00006000).val = 3 := by decide
    exact ⟨_, rfl, hsel⟩
  · have hsel : BitVec.ofNat 32 (sel 0xFFFFFFFF).val = 7 := by decide
    exact ⟨_, rfl, hsel⟩

theorem res_of_exec_prOffset {s t : State} {d : Word} {blk : BlockId} (h : exec (.prOffset d blk) s = .next t) :
    t.res = blockOffset Config.permRom[sel d] blk := by
  cases h
  rfl

/-- Settles O18: the decoding is the opcode's row; the four blocks have four positions in the selected row, hence four
offsets. -/
theorem prOffsetCommand : Obligations.PrOffsetCommand := by
  refine ⟨fun cw hop => ⟨?_, ?_⟩, fun s d blk => ?_, fun s t d blk h => ?_, fun s t t' d blk blk' h h' hne => ?_,
    fun s => ?_⟩
  · refine (and_mask_eq_pattern_iff_of_op (o := .prOffset) hop).trans ?_
    simp [C64.unusedZero, C64.ofWord, and_left_comm, and_assoc, extractLsb'_extractLsb']
  · have hblk : (C64.ofWord cw).a16.extractLsb' 0 2 = cw.extractLsb' 16 2 := extractLsb'_extractLsb' cw (by decide)
    refine (decode_of_op (o := .prOffset) hop).trans ?_
    rw [Instr.ofFields, hblk]
    rfl
  · cases blk <;> rfl
  · rw [res_of_exec_prOffset h]
    exact blockOffset_cases _ blk
  · rw [res_of_exec_prOffset h, res_of_exec_prOffset h']
    exact (blockOffset_permRom_injective (sel d)).ne hne
  · have hoffset : blockOffset Config.permRom[sel 0x00006000] .c = 40 := by decide
    exact ⟨_, rfl, hoffset⟩

/-- Settles O19: the decoding is the opcode's row; the index alone decides between the entry and the rejection. -/
theorem prEntryCommand : Obligations.PrEntryCommand := by
  refine ⟨fun cw hop => ⟨?_, ?_⟩, fun s idx h => ?_, fun s idx h => ?_, fun s => ?_, fun s => ?_⟩
  · refine (and_mask_eq_pattern_iff_of_op (o := .prEntry) hop).trans ?_
    simp [C64.unusedZero, C64.ofWord, and_left_comm, and_assoc, extractLsb'_extractLsb']
  · have hidx : (C64.ofWord cw).a16.extractLsb' 0 5 = cw.extractLsb' 16 5 := extractLsb'_extractLsb' cw (by decide)
    refine (decode_of_op (o := .prEntry) hop).trans ?_
    rw [Instr.ofFields, hidx]
    rfl
  · rw [exec, execPrEntry, dif_pos h]
    rfl
  · rw [exec, execPrEntry, dif_neg (Nat.not_lt.mpr h)]
    rfl
  · exact ⟨_, rfl, rfl⟩
  · exact ⟨s.reject .indexRange, rfl, State.st_ecode _⟩

end Sys2Proof.Machine

/-! ## The character-code mapper (43_charmap.md)

The stop cause of a code says everything about its lookup: every cause but OK is a Stop without a text unit, and under
OK the code is inside the table. -/

namespace Sys2Proof.Machine

/-! ### The cause of a code (R110, R111) -/

theorem stopCauseOf_null (len : Nat) : stopCauseOf len 0x0000 = .null := by
  rw [stopCauseOf, if_neg (by decide), if_pos rfl]

theorem stopCauseOf_range {len : Nat} {code : Half} (hend : code ≠ 0xFFFF) (hnull : code ≠ 0x0000)
    (hlen : len ≤ code.toNat) : stopCauseOf len code = .range := by
  rw [stopCauseOf, if_neg hend, if_neg hnull, if_pos hlen]

/-- Only the cause OK comes with a text unit. -/
theorem textUnitOf_eq_none_of_stop {T : Type} {table : List T} {code : Half}
    (hstop : stopCauseOf table.length code ≠ .ok) : textUnitOf table code = none :=
  Option.eq_none_iff_forall_ne_some.mpr fun _ hunit => hstop (textUnitOf_eq_some hunit).left

theorem textUnitOf_of_ok {T : Type} {table : List T} {code : Half} (hok : stopCauseOf table.length code = .ok) :
    textUnitOf table code = table[code.toNat]? := by
  rw [textUnitOf, hok]

/-! ### CM.LOOKUP as a record update -/

section Lookup

variable {s : State} {code : Half}

/-- A Stop is an accepted command: `ERR` and `ECODE` stay. -/
theorem exec_cmLookup_of_stop {c : StopCause} (hcause : stopCauseOf s.charTable.length code = c) (hstop : c ≠ .ok) :
    exec (.cmLookup code) s =
      .next { s with res := zext32 code, stop := true, scause := c, txt := none, rej := false } := by
  have hunit : textUnitOf s.charTable code = none := textUnitOf_eq_none_of_stop (hcause ▸ hstop)
  have hflag : isStop c = true := decide_eq_true hstop
  rw [exec, execCmLookup, hcause, hunit, State.setLookup, hflag]
  rfl

theorem exec_cmLookup_of_ok (hok : stopCauseOf s.charTable.length code = .ok) :
    exec (.cmLookup code) s =
      .next { s with
        res := zext32 code, stop := false, scause := .ok, txt := s.charTable[code.toNat]?, rej := false } := by
  rw [exec, execCmLookup, hok, textUnitOf_of_ok hok]
  rfl

end Lookup

/-- `ST.STOP` is bit 0 (10_state.md R29). -/
theorem State.st_stop (s : State) : s.st.getLsbD 0 = s.stop := by
  rw [State.st, BitVec.getLsbD_append, if_pos Nat.one_pos]
  simp [flagBit]

/-! ### The commands -/

/-- Settles O20: the decoding is the opcode's row; the code and the table's length decide the cause, and the cause the
rest. -/
theorem cmLookupCommand : Obligations.CmLookupCommand := by
  refine ⟨fun cw hop => ⟨?_, decode_of_op (o := .cmLookup) hop⟩, fun s => ?_, fun s => ?_,
    fun s code hend hnull hlen => ?_, fun s code hend hnull hlen => ?_, fun s value htable => ?_⟩
  · refine (and_mask_eq_pattern_iff_of_op (o := .cmLookup) hop).trans ?_
    simp [C64.unusedZero, C64.ofWord, and_left_comm, and_assoc]
  · exact exec_cmLookup_of_stop (if_pos rfl) (by decide)
  · exact exec_cmLookup_of_stop (stopCauseOf_null _) (by decide)
  · exact exec_cmLookup_of_stop (stopCauseOf_range hend hnull hlen) (by decide)
  · rw [exec_cmLookup_of_ok ((stopCauseOf_eq_ok_iff _ _).mpr ⟨hend, hnull, hlen⟩), List.getElem?_eq_getElem hlen]
  · have hlen : s.charTable.length = 4 := by simpa [State.tableAs] using congrArg List.length htable
    have hok : stopCauseOf s.charTable.length 2 = .ok := by rw [hlen]; decide
    have hunit : (s.charTable[2]?).map value = some "i" := by
      rw [← List.getElem?_map]
      exact congrArg (·[2]?) htable
    exact ⟨_, exec_cmLookup_of_ok hok, hunit, State.st_stop _⟩

/-- Settles O21: the one word of the row is its match; a length of 65536 fits the 32 bits of `RES`. -/
theorem cmLenCommand : Obligations.CmLenCommand := by
  refine ⟨fun cw hop => ?_, fun s => rfl, fun s hlen => ⟨_, rfl, ?_⟩⟩
  · have hmask : cw &&& Opcode.cmLen.mask = cw := BitVec.and_allOnes
    rw [decode_of_op (o := .cmLen) hop, hmask]
    rfl
  · exact Nat.mod_eq_of_lt (by omega)

end Sys2Proof.Machine

/-! ## The control command (44_control.md)

NOP: the whole word is its row, and it is an accepted command that does nothing else. -/

namespace Sys2Proof.Machine

/-- NOP is the bare acceptance of 60_exceptions.md R162. -/
theorem exec_nop (s : State) : exec .nop s = .next s.accept := rfl

/-- Settles O13: the one word of the row is its match; the acceptance clears `REJ` and no other register. -/
theorem nopCommand : Obligations.NopCommand := by
  refine ⟨fun cw hop => ?_, fun s => ?_⟩
  · have hmask : cw &&& Opcode.nop.mask = cw := BitVec.and_allOnes
    rw [decode_of_op (o := .nop) hop, hmask]
    rfl
  · rw [exec_nop, State.accept]

end Sys2Proof.Machine

/-! ## The host's decode (48_host_sequences.md)

The slot decode is compared with a plain reading of the 236 bytes: every read of the buffer gives the bytes that stand
there, the primary stream gives the decrypted region, the two block offsets cut blocks A and C out of it, and the name
scan spells their codes. So the record is a function of the bytes and the table alone, in every state the block may be
in; the party decode is six of them. -/

namespace Sys2Proof.Machine

/-! ### Reads of the save buffer (R131, 20_memory.md R46) -/

section ExceptBind

variable {ε α β : Type} {x : Except ε α} {f : α → Except ε β}

@[simp] theorem ok_bind (a : α) : (Except.ok a >>= f) = f a := rfl

theorem bind_eq_ok {b : β} (h : x >>= f = .ok b) : ∃ a, x = .ok a ∧ f a = .ok b := by
  cases x with
  | error e => cases h
  | ok a => exact ⟨a, rfl, h⟩

end ExceptBind

/-- The 16-bit value whose low byte is at `addr`. -/
def halfAt (buf : SaveBuffer) (addr : Nat) : Half := slotByte buf (addr + 1) ++ slotByte buf addr

/-- The first byte of a little-endian value is its lowest. -/
theorem ofNat_littleEndian_cons (n : Nat) (b : Byte) (bs : List Byte) :
    BitVec.ofNat (n + 8) (littleEndian (b :: bs)) = BitVec.ofNat n (littleEndian bs) ++ b := by
  have hb : b.toNat < 2 ^ 8 := b.isLt
  have hcons : littleEndian (b :: bs) = b.toNat + 2 ^ 8 * littleEndian bs := rfl
  have hlow : (b.toNat + 2 ^ 8 * littleEndian bs) % 2 ^ 8 = b.toNat := by omega
  have hhigh : (b.toNat + 2 ^ 8 * littleEndian bs) / 2 ^ 8 = littleEndian bs := by omega
  apply BitVec.eq_of_toNat_eq
  rw [BitVec.toNat_append, ← Nat.shiftLeft_add_eq_or_of_lt hb, Nat.shiftLeft_eq, BitVec.toNat_ofNat,
    BitVec.toNat_ofNat, hcons, Nat.pow_add, Nat.mul_comm (2 ^ n), Nat.mod_mul, hlow, hhigh, Nat.add_comm, Nat.mul_comm]

theorem ofNat_littleEndian_singleton (b : Byte) : BitVec.ofNat 8 (littleEndian [b]) = b := by
  simp [littleEndian]

theorem ofNat_littleEndian_pair (b b' : Byte) : BitVec.ofNat 16 (littleEndian [b, b']) = b' ++ b := by
  rw [ofNat_littleEndian_cons 8, ofNat_littleEndian_singleton]

theorem ofNat_littleEndian_quad (b₀ b₁ b₂ b₃ : Byte) :
    BitVec.ofNat 32 (littleEndian [b₀, b₁, b₂, b₃]) = b₃ ++ b₂ ++ b₁ ++ b₀ := by
  rw [ofNat_littleEndian_cons 24, ofNat_littleEndian_cons 16, ofNat_littleEndian_pair]

section Reads

variable {buf : SaveBuffer} {addr n : Nat}

theorem slotByte_append_right {bs cs : List Byte} {k : Nat} (hk : bs.length ≤ k) :
    slotByte (bs ++ cs) k = slotByte cs (k - bs.length) :=
  List.getD_append_right _ _ _ _ hk

theorem slotByte_map_range (f : Nat → Byte) {j : Nat} (hj : j < n) : slotByte ((List.range n).map f) j = f j := by
  simp [slotByte, hj]

/-- A read inside the buffer gives the bytes that stand there. -/
theorem memSlice_eq_map_slotByte (h : addr + n ≤ buf.length) :
    memSlice buf addr n = .ok ((List.range n).map fun j => slotByte buf (addr + j)) := by
  rw [memSlice_of_le h]
  refine congrArg Except.ok (List.ext_getElem (by simp; omega) fun j hj hj' => ?_)
  have hin : addr + j < buf.length := by simp at hj; omega
  simp [slotByte, hin]

theorem memByte_eq_slotByte (h : addr < buf.length) : memByte buf addr = .ok (slotByte buf addr) := by
  rw [memByte, memRead, memSlice_eq_map_slotByte h]
  exact congrArg Except.ok (ofNat_littleEndian_singleton _)

theorem memRead16_eq_halfAt (h : addr + 2 ≤ buf.length) : memRead16 buf addr = .ok (halfAt buf addr) := by
  rw [memRead16, memRead, memSlice_eq_map_slotByte h]
  exact congrArg Except.ok (ofNat_littleEndian_pair _ _)

theorem memRead32_eq_slotPv (h : 4 ≤ buf.length) : memRead32 buf 0 = .ok (slotPv buf) := by
  rw [memRead32, memRead, memSlice_eq_map_slotByte (by omega)]
  exact congrArg Except.ok (ofNat_littleEndian_quad _ _ _ _)

theorem readHalves_eq_map_halfAt (h : addr + 2 * n ≤ buf.length) :
    readHalves buf addr n = .ok ((List.range n).map fun i => halfAt buf (addr + 2 * i)) := by
  induction n generalizing addr with
  | zero => rfl
  | succ n ih =>
    have hshift (i : Nat) : addr + 2 + 2 * i = addr + 2 * i.succ := by omega
    rw [readHalves, memRead16_eq_halfAt (by omega), ih (by omega), List.range_succ_eq_map, List.map_cons,
      List.map_map]
    simp only [hshift]
    rfl

end Reads

/-! ### The decrypted region and its blocks (R133-R136) -/

/-- A byte of a 16-bit value read from the buffer is the byte that was read. -/
theorem extractLsb'_halfAt (buf : SaveBuffer) (addr : Nat) {b : Nat} (hb : b < 2) :
    (halfAt buf addr).extractLsb' (8 * b) 8 = slotByte buf (addr + b) := by
  obtain rfl | rfl : b = 0 ∨ b = 1 := by omega
  · exact BitVec.extractLsb'_append_eq_right
  · exact BitVec.extractLsb'_append_eq_left

theorem bytesOf_half (w : Half) : bytesOf 2 w.toNat = [w.extractLsb' 0 8, w.extractLsb' 8 8] := by
  simp [bytesOf, BitVec.extractLsb', Nat.shiftRight_eq_div_pow]

theorem slotByte_bytesOfHalves (ws : List Half) (k : Nat) :
    slotByte (bytesOfHalves ws) k = (ws.getD (k / 2) 0).extractLsb' (8 * (k % 2)) 8 := by
  induction ws generalizing k with
  | nil => simp [bytesOfHalves, slotByte]
  | cons w ws ih =>
    have hcons : bytesOfHalves (w :: ws) = w.extractLsb' 0 8 :: w.extractLsb' 8 8 :: bytesOfHalves ws := by
      simp [bytesOfHalves, bytesOf_half]
    rw [hcons]
    match k with
    | 0 => rfl
    | 1 => rfl
    | k + 2 =>
      have hdiv : (k + 2) / 2 = k / 2 + 1 := by omega
      have hmod : (k + 2) % 2 = k % 2 := by omega
      rw [hdiv, hmod, List.getD_cons_succ, ← ih]
      rfl

theorem length_bytesOfHalves (ws : List Half) : (bytesOfHalves ws).length = 2 * ws.length := by
  simp [bytesOfHalves, Nat.mul_comm]

theorem mapIdx_map_range {α β : Type} (n : Nat) (f : Nat → α) (g : Nat → α → β) :
    ((List.range n).map f).mapIdx g = (List.range n).map fun i => g i (f i) :=
  List.ext_getElem (by simp) fun i _ _ => by simp

/-- The decrypted words of a slot. -/
def plainHalves (slot : List Byte) : List Half :=
  (List.range 64).map fun i => halfAt slot (8 + 2 * i) ^^^ keystream (i + 1) (zext32 (slotChecksum slot))

/-- Byte by byte the decrypted words are the cipher bytes XOR the bytes of the keystream words. -/
theorem slotByte_plainHalves (slot : List Byte) {k : Nat} (hk : k < 128) :
    slotByte (bytesOfHalves (plainHalves slot)) k = plainByte slot k := by
  have hword : k / 2 < 64 := by omega
  have hbyte : 8 + 2 * (k / 2) + k % 2 = 8 + k := by omega
  have hget : (plainHalves slot).getD (k / 2) 0 =
      halfAt slot (8 + 2 * (k / 2)) ^^^ keystream (k / 2 + 1) (zext32 (slotChecksum slot)) := by
    simp [plainHalves, hword]
  rw [slotByte_bytesOfHalves, hget, BitVec.extractLsb'_xor, extractLsb'_halfAt _ _ (Nat.mod_lt k Nat.two_pos), hbyte,
    plainByte]

/-- A canonical block of a slot, decrypted. -/
def blockBytes (slot : List Byte) (blk : BlockId) : List Byte := (List.range 32).map (blockByte slot blk)

theorem toNat_blockOffset (e : Byte) (blk : BlockId) : (blockOffset e blk).toNat = 8 + 32 * (pos e blk).toNat := by
  have hoffset (p : BitVec 2) : (8 + 32 * zext32 p).toNat = 8 + 32 * p.toNat := by revert p; decide
  exact hoffset (pos e blk)

/-- Behind the 8 header bytes the offset of PR.OFFSET cuts the block out of the decrypted region. -/
theorem memSlice_block {slot header : List Byte} (blk : BlockId) (hheader : header.length = 8) :
    memSlice (header ++ bytesOfHalves (plainHalves slot))
      (blockOffset Config.permRom[sel (slotPv slot)] blk).toNat 32 = .ok (blockBytes slot blk) := by
  have hpos := (pos Config.permRom[sel (slotPv slot)] blk).isLt
  have hlen : (bytesOfHalves (plainHalves slot)).length = 128 := by simp [length_bytesOfHalves, plainHalves]
  rw [toNat_blockOffset, memSlice_eq_map_slotByte (by rw [List.length_append]; omega), blockBytes]
  refine congrArg Except.ok (List.map_congr_left fun j hj => ?_)
  have hj : j < 32 := List.mem_range.mp hj
  have hregion (p : Nat) : 8 + 32 * p + j - header.length = 32 * p + j := by omega
  rw [slotByte_append_right (by omega), hregion, slotByte_plainHalves slot (by omega), blockByte]

theorem slotByte_blockBytes (slot : List Byte) (blk : BlockId) {j : Nat} (hj : j < 32) :
    slotByte (blockBytes slot blk) j = blockByte slot blk j :=
  slotByte_map_range _ hj

theorem length_blockBytes (slot : List Byte) (blk : BlockId) : (blockBytes slot blk).length = 32 := by
  simp [blockBytes]

/-- The effort values of a slot, bytes 0x10-0x15 of block A (R138). -/
def slotEffort (slot : List Byte) : EffortValues where
  hp  := blockByte slot .a 0x10
  atk := blockByte slot .a 0x11
  dfn := blockByte slot .a 0x12
  spa := blockByte slot .a 0x13
  spd := blockByte slot .a 0x14
  spe := blockByte slot .a 0x15

theorem readEffort_blockBytes (slot : List Byte) : readEffort (blockBytes slot .a) = .ok (slotEffort slot) := by
  have hread {j : Nat} (hj : j < 32) : memByte (blockBytes slot .a) j = .ok (blockByte slot .a j) := by
    rw [memByte_eq_slotByte (by rwa [length_blockBytes]), slotByte_blockBytes slot .a hj]
  simp (disch := decide) only [readEffort, hread, ok_bind]
  rfl

theorem readHalves_blockBytes (slot : List Byte) : readHalves (blockBytes slot .c) 0 11 = .ok (nameCodes slot) := by
  rw [readHalves_eq_map_halfAt (by rw [length_blockBytes]; decide), nameCodes]
  refine congrArg Except.ok (List.map_congr_left fun j hj => ?_)
  have hj : j < 11 := List.mem_range.mp hj
  rw [halfAt, Nat.zero_add, slotByte_blockBytes _ _ (by omega), slotByte_blockBytes _ _ (by omega)]

/-! ### Commands of a decode (R130, R145) -/

theorem State.stepOrReject_charTable (s : State) (g : KsId) (value : Half → Half) :
    (s.stepOrReject g value).charTable = s.charTable := by
  cases hs : s.seeded g with
  | true => simp [State.stepOrReject_of_seeded value hs]
  | false => simp [State.stepOrReject_of_unseeded value hs]

theorem exec_keeps_charTable {i : Instr} {s t : State} (hexec : exec i s = .next t) : t.charTable = s.charTable := by
  cases i with
  | ksSeed g seed =>
    cases hexec
    simp
  | ksNext g =>
    cases hexec
    exact s.stepOrReject_charTable g _
  | xdWord g w =>
    cases hexec
    exact s.stepOrReject_charTable g _
  | prEntry idx =>
    cases hexec
    split <;> rfl
  | _ =>
    cases hexec
    rfl

/-- The block takes commands, and looks codes up in this table. -/
structure State.ReadyWith (s : State) (table : List TextUnit) : Prop where
  phase_ne : s.phase ≠ .reloaded
  charTable_eq : s.charTable = table

theorem issue_of_reloaded {s : State} (cw : CommandWord) (hphase : s.phase = .reloaded) :
    issue cw s = .refused .tableChangedDuringRun := by
  change takeCommand cw s = _
  rw [takeCommand, hphase]

/-- A command that does not fail the host ran in a run that no table change has spoilt. -/
theorem exec_of_issueOrFail {i : Instr} {s t : State} (h : issueOrFail i s = .ok t) :
    exec i { s with phase := .running } = .next t := by
  by_cases hphase : s.phase = .reloaded
  · simp [issueOrFail, issue_of_reloaded _ hphase] at h
  · obtain ⟨u, hexec⟩ := exec_next i { s with phase := .running }
    simp only [issueOrFail, issue_encode i hphase, hexec] at h
    split at h
    · cases h
    · cases h
      exact hexec

section Decode

variable {s t : State} {table : List TextUnit}

theorem issueOrFail_keeps_charTable {i : Instr} (h : issueOrFail i s = .ok t) : t.charTable = s.charTable :=
  exec_keeps_charTable (s := { s with phase := .running }) (exec_of_issueOrFail h)

theorem issueOrFail_ready {i : Instr} (hs : s.charTable = table) (h : issueOrFail i s = .ok t) : t.ReadyWith table := by
  have hphase : t.phase = .running := exec_keeps_phase (exec_of_issueOrFail h)
  exact ⟨by simp [hphase], (issueOrFail_keeps_charTable h).trans hs⟩

theorem decryptWords_keeps_charTable {g : KsId} {ws rs : List Half} (h : decryptWords g ws s = .ok (rs, t)) :
    t.charTable = s.charTable := by
  induction ws generalizing s rs with
  | nil =>
    cases h
    rfl
  | cons w ws ih =>
    obtain ⟨u, hissue, h⟩ := bind_eq_ok h
    obtain ⟨⟨rs', t'⟩, hrun, h⟩ := bind_eq_ok h
    cases h
    exact (ih hrun).trans (issueOrFail_keeps_charTable hissue)

theorem decryptStream_keeps_charTable {g : KsId} {seed : Word} {ws rs : List Half}
    (h : decryptStream g seed ws s = .ok (rs, t)) : t.charTable = s.charTable := by
  obtain ⟨u, hissue, hrun⟩ := bind_eq_ok h
  exact (decryptWords_keeps_charTable hrun).trans (issueOrFail_keeps_charTable hissue)

/-- A stream of words read from the buffer, decrypted under a seed (R133, R141). -/
theorem decryptStream_ready (hs : s.ReadyWith table) (g : KsId) (seed : Word) (n : Nat) (f : Nat → Half) :
    ∃ t, decryptStream g seed ((List.range n).map f) s =
        .ok ((List.range n).map fun i => f i ^^^ keystream (i + 1) seed, t) ∧
      t.ReadyWith table ∧ t.HoldsKs g (lcgIter n seed) := by
  obtain ⟨t, hrun, ht⟩ := decryptStream_eq_mapIdx g seed ((List.range n).map f) hs.phase_ne
  rw [mapIdx_map_range] at hrun
  rw [List.length_map, List.length_range] at ht
  exact ⟨t, hrun, ⟨ht.phase_ne, (decryptStream_keeps_charTable hrun).trans hs.charTable_eq⟩, ht⟩

theorem issueOffset_ready (hs : s.ReadyWith table) (pv : Word) (blk : BlockId) :
    ∃ t, issueOffset pv blk s = .ok ((blockOffset Config.permRom[sel pv] blk).toNat, t) ∧ t.ReadyWith table := by
  have hissue := issueOrFail_of_accepted (i := .prOffset pv blk) hs.phase_ne rfl rfl
  refine ⟨_, ?_, issueOrFail_ready hs.charTable_eq hissue⟩
  rw [issueOffset, hissue]
  rfl

/-! ### The name scan (R137) -/

/-- A code runs exactly when its lookup is not a Stop (43_charmap.md R110). -/
theorem codeRuns_iff {T : Type} (table : List T) (c : Half) :
    codeRuns table c = true ↔ stopCauseOf table.length c = .ok := by
  rw [stopCauseOf_eq_ok_iff]
  simp [codeRuns, and_assoc]

@[simp] theorem State.stopBit_response (s : State) : s.response.stopBit = s.stop := State.st_stop s

theorem stop_of_issueOrFail_cmLookup {c : Half} (h : issueOrFail (.cmLookup c) s = .ok t) :
    t.stop = !codeRuns s.charTable c := by
  cases exec_of_issueOrFail h
  simp [isStop, ← codeRuns_iff]

theorem txt_of_issueOrFail_cmLookup {c : Half} (h : issueOrFail (.cmLookup c) s = .ok t) :
    t.txt = textUnitOf s.charTable c := by
  cases exec_of_issueOrFail h
  rfl

theorem issueOrFail_cmLookup_ready (c : Half) (hs : s.ReadyWith table) :
    ∃ t, issueOrFail (.cmLookup c) s = .ok t ∧ t.ReadyWith table := by
  have hissue := issueOrFail_of_accepted (i := .cmLookup c) hs.phase_ne rfl rfl
  exact ⟨_, hissue, issueOrFail_ready hs.charTable_eq hissue⟩

theorem nameScan_of_stop {c : Half} (cs : List Half) (hstop : codeRuns s.charTable c = false) :
    nameScan (c :: cs) s = (issueOrFail (.cmLookup c) s).map fun t => ([], t) := by
  rw [nameScan]
  cases hissue : issueOrFail (.cmLookup c) s with
  | error e => rfl
  | ok t =>
    rw [ok_bind, State.stopBit_response, stop_of_issueOrFail_cmLookup hissue, hstop]
    rfl

theorem nameScan_of_runs {c : Half} {cs : List Half} {us : List TextUnit} {u : State}
    (hruns : codeRuns s.charTable c = true) (hissue : issueOrFail (.cmLookup c) s = .ok t)
    (hscan : nameScan cs t = .ok (us, u)) :
    nameScan (c :: cs) s = .ok (s.charTable[c.toNat]?.toList ++ us, u) := by
  have htxt : t.txt = s.charTable[c.toNat]? :=
    (txt_of_issueOrFail_cmLookup hissue).trans (textUnitOf_of_ok ((codeRuns_iff _ _).mp hruns))
  rw [nameScan, hissue, ok_bind, State.stopBit_response, stop_of_issueOrFail_cmLookup hissue, hruns, hscan, ← htxt]
  rfl

theorem nameOf_cons_of_stop {T : Type} {table : List T} {c : Half} (cs : List Half)
    (hstop : codeRuns table c = false) : nameOf table (c :: cs) = [] := by
  simp [nameOf, hstop]

theorem nameOf_cons_of_runs {T : Type} {table : List T} {c : Half} (cs : List Half)
    (hruns : codeRuns table c = true) : nameOf table (c :: cs) = table[c.toNat]?.toList ++ nameOf table cs := by
  rw [nameOf, List.takeWhile_cons_of_pos hruns, List.filterMap_cons, nameOf]
  cases table[c.toNat]? <;> rfl

theorem length_nameOf_le {T : Type} (table : List T) (codes : List Half) :
    (nameOf table codes).length ≤ codes.length :=
  (List.length_filterMap_le _ _).trans (List.takeWhile_sublist _).length_le

/-- The scan of a list of codes gives the name they spell. -/
theorem nameScan_ready (cs : List Half) (hs : s.ReadyWith table) :
    ∃ t, nameScan cs s = .ok (nameOf table cs, t) ∧ t.ReadyWith table := by
  induction cs generalizing s with
  | nil => exact ⟨s, rfl, hs⟩
  | cons c cs ih =>
    obtain ⟨t, hissue, ht⟩ := issueOrFail_cmLookup_ready c hs
    obtain ⟨-, rfl⟩ := hs
    cases hruns : codeRuns s.charTable c with
    | false =>
      refine ⟨t, ?_, ht⟩
      rw [nameScan_of_stop cs hruns, hissue, nameOf_cons_of_stop cs hruns]
      rfl
    | true =>
      obtain ⟨u, hscan, hu⟩ := ih ht
      exact ⟨u, by rw [nameScan_of_runs hruns hissue hscan, nameOf_cons_of_runs cs hruns], hu⟩

/-- The codes after one that stops are not looked up. -/
theorem nameScan_append_stop (before after : List Half) {c : Half} (hstop : codeRuns s.charTable c = false) :
    nameScan (before ++ c :: after) s = nameScan (before ++ [c]) s := by
  induction before generalizing s with
  | nil => exact (nameScan_of_stop after hstop).trans (nameScan_of_stop [] hstop).symm
  | cons b before ih =>
    simp only [List.cons_append, nameScan]
    cases hissue : issueOrFail (.cmLookup b) s with
    | error e => rfl
    | ok t =>
      have hstop' : codeRuns t.charTable c = false := by rwa [issueOrFail_keeps_charTable hissue]
      simp only [ok_bind, ih hstop']

/-! ### The slot decode (R131-R142) -/

/-- The record of a slot read byte by byte (R136-R141). -/
def slotRecord (table : List TextUnit) (slot : List Byte) : Record where
  name   := nameOf table (nameCodes slot)
  level  := slotByte slot 0x8C ^^^ (keystream 3 (slotPv slot)).extractLsb' 0 8
  effort := slotEffort slot

/-- The level is the low byte of the third decrypted word of the battle-stat region (R141). -/
theorem lastLowByte_battle (slot : List Byte) :
    lastLowByte ((List.range 3).map fun i => halfAt slot (0x88 + 2 * i) ^^^ keystream (i + 1) (slotPv slot)) =
      .ok (slotByte slot 0x8C ^^^ (keystream 3 (slotPv slot)).extractLsb' 0 8) := by
  have hlow : (halfAt slot 0x8C).extractLsb' 0 8 = slotByte slot 0x8C := extractLsb'_halfAt slot 0x8C Nat.two_pos
  rw [← hlow, ← BitVec.extractLsb'_xor]
  rfl

/-- The slot decode gives the record of its bytes, whatever state the block is in. -/
theorem decodeSlotBytes_eq_slotRecord {slot : List Byte} (hlen : slot.length = 236)
    (hs : s.ReadyWith table) :
    ∃ t, decodeSlotBytes slot s = .ok (slotRecord table slot, t) ∧ t.ReadyWith table ∧
      t.HoldsKs .ks1 (lcgIter 3 (slotPv slot)) := by
  have hpv : memRead32 slot 0x00 = .ok (slotPv slot) := memRead32_eq_slotPv (by omega)
  have hchk : memRead16 slot 0x06 = .ok (slotChecksum slot) := memRead16_eq_halfAt (by omega)
  have hcipher := readHalves_eq_map_halfAt (buf := slot) (addr := 0x08) (n := 64) (by omega)
  have hheader := memSlice_of_le (buf := slot) (addr := 0) (n := 8) (by omega)
  have hbattle := readHalves_eq_map_halfAt (buf := slot) (addr := 0x88) (n := 3) (by omega)
  obtain ⟨s₁, hplain, hs₁, -⟩ := decryptStream_ready hs .ks0 (zext32 (slotChecksum slot)) 64
    fun i => halfAt slot (0x08 + 2 * i)
  obtain ⟨s₂, hoffA, hs₂⟩ := issueOffset_ready hs₁ (slotPv slot) .a
  obtain ⟨s₃, hoffC, hs₃⟩ := issueOffset_ready hs₂ (slotPv slot) .c
  obtain ⟨s₄, hname, hs₄⟩ := nameScan_ready (nameCodes slot) hs₃
  obtain ⟨s₅, hstats, hs₅, hks⟩ := decryptStream_ready hs₄ .ks1 (slotPv slot) 3 fun i => halfAt slot (0x88 + 2 * i)
  rw [← plainHalves] at hplain
  refine ⟨s₅, ?_, hs₅, hks⟩
  simp only [decodeSlotBytes, hpv, hchk, hcipher, hplain, hheader, hoffA, hoffC,
    memSlice_block _ (memSlice_length hheader), readHalves_blockBytes, hname, hbattle, hstats, lastLowByte_battle,
    readEffort_blockBytes, ok_bind]
  rfl

theorem decodeSlot_eq_slotRecord {buf : SaveBuffer} {s0 : Nat} (hlen : s0 + slotSize ≤ buf.length)
    (hs : s.ReadyWith table) :
    ∃ t, decodeSlot buf s0 s = .ok (slotRecord table ((buf.drop s0).take slotSize), t) ∧ t.ReadyWith table := by
  have hread := memSlice_of_le hlen
  obtain ⟨t, hdecode, ht, -⟩ := decodeSlotBytes_eq_slotRecord (memSlice_length hread) hs
  refine ⟨t, ?_, ht⟩
  rw [decodeSlot, hread, ok_bind, hdecode]

/-! ### The party decode (R143-R149) -/

/-- The record of slot `i` of a buffer read byte by byte. -/
def partyRecord (table : List TextUnit) (buf : SaveBuffer) (off i : Nat) : Record :=
  slotRecord table ((buf.drop (off + i * slotSize)).take slotSize)

theorem decodeSlots_eq_partyRecord {buf : SaveBuffer} {off n i : Nat} (hlen : off + (i + n) * slotSize ≤ buf.length)
    (hs : s.ReadyWith table) :
    ∃ t, decodeSlots buf off n i s = .ok ((List.range' i n).map (partyRecord table buf off), t) ∧
      t.ReadyWith table := by
  induction n generalizing s i with
  | zero => exact ⟨s, rfl, hs⟩
  | succ n ih =>
    have hslot : off + i * slotSize + slotSize ≤ buf.length := by simp only [slotSize] at *; omega
    have hrest : off + (i + 1 + n) * slotSize ≤ buf.length := by simp only [slotSize] at *; omega
    obtain ⟨t, hdecode, ht⟩ := decodeSlot_eq_slotRecord hslot hs
    obtain ⟨u, hdecodes, hu⟩ := ih hrest ht
    refine ⟨u, ?_, hu⟩
    simp only [decodeSlots, hdecode, hdecodes, ok_bind]
    rfl

theorem decodeParty_of_length_lt {buf : SaveBuffer} {off : Nat} (s : State) (hlen : buf.length < off + 1416) :
    decodeParty buf off s = .error .bufferTooShort :=
  if_pos hlen

/-- The party decode gives the records of the six slots' bytes, whatever state the block is in. -/
theorem decodeParty_eq_partyRecord {buf : SaveBuffer} {off : Nat} (hlen : off + 1416 ≤ buf.length)
    (hs : s.ReadyWith table) :
    ∃ t, decodeParty buf off s = .ok ((List.range 6).map (partyRecord table buf off), t) ∧ t.ReadyWith table := by
  obtain ⟨t, hdecode, ht⟩ := decodeSlots_eq_partyRecord (n := 6) (i := 0) hlen hs
  exact ⟨t, (if_neg (Nat.not_lt.mpr hlen)).trans hdecode, ht⟩

end Decode

/-! ### The statements -/

/-- Settles O36: the length check is the first thing the party decode does; past it each of the six slots decodes. -/
theorem partyLengthCheck : Obligations.PartyLengthCheck := by
  refine fun buf off s => ⟨decodeParty_of_length_lt s, fun hlen hphase => ?_⟩
  obtain ⟨t, hdecode, -⟩ := decodeParty_eq_partyRecord hlen ⟨hphase, rfl⟩
  exact ⟨_, t, hdecode, by rw [List.length_map, List.length_range]⟩

/-- Settles O37: the level of the slot's record, and the battle-stat stream is the decode's last use of a generator. -/
theorem slotLevel : Obligations.SlotLevel := by
  intro slot s hlen hphase
  obtain ⟨t, hdecode, -, hks⟩ := decodeSlotBytes_eq_slotRecord hlen ⟨hphase, rfl⟩
  exact ⟨_, t, hdecode, rfl, hks.ks_eq, hks.seeded⟩

/-- Settles O38: the effort values of the slot's record. -/
theorem slotEffortValues : Obligations.SlotEffortValues := by
  intro slot s hlen hphase
  obtain ⟨t, hdecode, -⟩ := decodeSlotBytes_eq_slotRecord hlen ⟨hphase, rfl⟩
  exact ⟨_, t, hdecode, rfl⟩

/-- Settles O39: the name of the slot's record, no longer than its 11 codes, and the scan ends at a code that stops. -/
theorem slotName : Obligations.SlotName := by
  refine ⟨fun slot s hlen hphase => ?_, fun before after c s => nameScan_append_stop before after⟩
  obtain ⟨t, hdecode, -⟩ := decodeSlotBytes_eq_slotRecord hlen ⟨hphase, rfl⟩
  have hcodes : (nameCodes slot).length = 11 := by rw [nameCodes, List.length_map, List.length_range]
  exact ⟨_, t, hdecode, rfl, hcodes ▸ length_nameOf_le s.charTable (nameCodes slot)⟩

/-- Settles O40: the length alone decides between the failure and the records, and those are the ones read from the
bytes and the table. -/
theorem decodeDeterministic : Obligations.DecodeDeterministic := by
  intro buf off s s' hphase hphase' htable
  by_cases hlen : buf.length < off + 1416
  · rw [decodeParty_of_length_lt s hlen, decodeParty_of_length_lt s' hlen]
  · have hle := Nat.not_lt.mp hlen
    obtain ⟨t, hdecode, -⟩ := decodeParty_eq_partyRecord hle ⟨hphase, htable⟩
    obtain ⟨t', hdecode', -⟩ := decodeParty_eq_partyRecord hle ⟨hphase', rfl⟩
    rw [hdecode, hdecode']
    rfl

end Sys2Proof.Machine

/-! ## Rejections (60_exceptions.md)

A decoded command has at most one cause of its own, UNSEEDED or INDEX_RANGE. Running it rejects it for that cause or
accepts it, and the causes of a word are the decoder's two and then the cause of its command, in the order of R167. -/

namespace Sys2Proof.Machine

/-! ### Running a command (R161, R162) -/

/-- The cause a decoded command is rejected for: its own check after decode (60_exceptions.md R163). -/
def execCause (s : State) : Instr → Option RejectCode
  | .ksNext g    => if s.seeded g = false then some .unseeded else none
  | .xdWord g _  => if s.seeded g = false then some .unseeded else none
  | .prEntry idx => if 24 ≤ idx.toNat then some .indexRange else none
  | _            => none

/-- The state after `s` took a word with this cause: rejected for it (60_exceptions.md R161), or accepted (R162). -/
inductive State.Answers (s : State) : Option RejectCode → State → Prop
  | rejected (c : RejectCode) : s.Answers (some c) (s.reject c)
  | accepted {t : State} (hrej : t.rej = false) (herr : t.err = s.err) (hecode : t.ecode = s.ecode) :
      s.Answers none t

/-- Acceptance after writes that leave `ERR` and `ECODE` alone. -/
theorem State.answers_accept {s t : State} (herr : t.err = s.err) (hecode : t.ecode = s.ecode) :
    s.Answers none t.accept :=
  .accepted t.accept_rej herr hecode

theorem State.answers_stepOrReject (s : State) (g : KsId) (value : Half → Half) :
    s.Answers (if s.seeded g = false then some .unseeded else none) (s.stepOrReject g value) := by
  cases hs : s.seeded g with
  | true =>
    rw [State.stepOrReject_of_seeded value hs]
    exact State.answers_accept (by simp) (by simp)
  | false =>
    rw [State.stepOrReject_of_unseeded value hs]
    exact .rejected .unseeded

/-- A command is rejected for its own cause and accepted without one. -/
theorem exec_answers (i : Instr) (s : State) : ∃ t, exec i s = .next t ∧ s.Answers (execCause s i) t := by
  refine (exec_next i s).imp fun t hexec => ⟨hexec, ?_⟩
  cases i with
  | ksSeed g seed =>
    cases hexec
    exact State.answers_accept (by simp) (by simp)
  | ksNext g =>
    cases hexec
    exact s.answers_stepOrReject g _
  | xdWord g w =>
    cases hexec
    exact s.answers_stepOrReject g _
  | prEntry idx =>
    cases hexec
    by_cases hidx : idx.toNat < 24
    · rw [execCause, if_neg (Nat.not_le.mpr hidx), dif_pos hidx]
      exact State.answers_accept rfl rfl
    · rw [execCause, if_pos (Nat.not_lt.mp hidx), dif_neg hidx]
      exact .rejected .indexRange
  | _ =>
    cases hexec
    exact State.answers_accept rfl rfl

/-! ### The causes of a word (R163, R167) -/

section Cause

variable {s : State} {cw : CommandWord} {o : Opcode}

theorem rejectionCause_of_illegal (hop : Opcode.ofByte (cw.extractLsb' 0 8) = none) :
    rejectionCause s cw = some .illegalOpcode := by
  rw [← legalOps_lookup] at hop
  rw [rejectionCause, hop]

theorem rejectionCause_of_reserved (hop : Opcode.ofByte (cw.extractLsb' 0 8) = some o)
    (hzero : (C64.ofWord cw).unusedZero o = false) : rejectionCause s cw = some .reservedField := by
  rw [← legalOps_lookup] at hop
  simp only [rejectionCause, hop, if_pos hzero]

/-- `G` selects the `SEEDED` bit that a command's own check reads (30_encoding.md R64). -/
theorem State.seeded_ofBit_g (s : State) (cw : CommandWord) :
    s.seeded (KsId.ofBit (C64.ofWord cw).g) = if cw.getLsbD 8 then s.seeded1 else s.seeded0 := by
  rw [KsId.ofBit_g]
  cases cw.getLsbD 8 <;> rfl

/-- Past the decoder's two causes a word has the cause of the command it decodes to. -/
theorem rejectionCause_of_legal (hop : Opcode.ofByte (cw.extractLsb' 0 8) = some o)
    (hzero : (C64.ofWord cw).unusedZero o = true) :
    rejectionCause s cw = execCause s (Instr.ofFields (C64.ofWord cw) o) := by
  have hidx : (C64.ofWord cw).a16.extractLsb' 0 5 = cw.extractLsb' 16 5 := extractLsb'_extractLsb' cw (by decide)
  have hcode := Opcode.code_of_ofByte hop
  rw [← legalOps_lookup] at hop
  simp only [rejectionCause, hop, hzero]
  rw [← hcode]
  cases o with
  | ksNext => simp [Opcode.code, Instr.ofFields, execCause, State.seeded_ofBit_g]
  | xdWord => simp [Opcode.code, Instr.ofFields, execCause, State.seeded_ofBit_g]
  | prEntry => simp [Opcode.code, Instr.ofFields, execCause, hidx]
  | _ => simp [Opcode.code, Instr.ofFields, execCause]

end Cause

/-! ### The step -/

/-- A word is rejected for its first cause and accepted without one. -/
theorem takeWord_answers (cw : CommandWord) (s : State) :
    ∃ t, takeWord cw s = .next t ∧ s.Answers (rejectionCause s cw) t := by
  cases hop : Opcode.ofByte (cw.extractLsb' 0 8) with
  | none =>
    rw [takeWord, decode_of_ofByte_eq_none hop, rejectionCause_of_illegal hop]
    exact ⟨_, rfl, .rejected _⟩
  | some o =>
    cases hzero : (C64.ofWord cw).unusedZero o with
    | false =>
      rw [takeWord, decode_of_ofByte_eq_some hop, hzero, rejectionCause_of_reserved hop hzero]
      exact ⟨_, rfl, .rejected _⟩
    | true =>
      rw [takeWord, decode_of_ofByte_eq_some hop, if_pos hzero, rejectionCause_of_legal hop hzero]
      exact exec_answers _ s

theorem step_of_port_command {s : State} {cw : CommandWord} {rest : List HostAction}
    (hport : s.port = .command cw :: rest) (hphase : s.phase ≠ .reloaded) :
    step s = takeWord cw { s with port := rest, phase := .running } := by
  rw [step, portStep, hport]
  exact takeCommand_of_phase (s := { s with port := rest }) hphase

/-- Settles O6: a word's cause does not depend on the port and the phase, and the word is rejected for it or, without
one, accepted. -/
theorem commandAcceptedOrRejected : Obligations.CommandAcceptedOrRejected := by
  intro s cw rest hport hphase
  obtain ⟨t, htake, hanswers⟩ := takeWord_answers cw { s with port := rest, phase := .running }
  have hcause : rejectionCause { s with port := rest, phase := .running } cw = rejectionCause s cw := rfl
  rw [hcause] at hanswers
  refine ⟨t, (step_of_port_command hport hphase).trans htake, fun c hc => ?_, fun hnone => ?_⟩
  · rw [hc] at hanswers
    cases hanswers
    rfl
  · rw [hnone] at hanswers
    cases hanswers with
    | accepted hrej herr hecode => exact ⟨hrej, herr, hecode⟩

end Sys2Proof.Machine

/-! ## Words and commands one to one (30_encoding.md R62, R69)

A word that decodes keeps the columns of its row, so it holds the operands and nothing else: encoding the command writes
the same fields. -/

namespace Sys2Proof

/-- Settles O8: the fields are those that were written, the must-be-zero ones zero, and `OP` names the command. -/
theorem decodeOfEncode : Obligations.DecodeOfEncode := decode_encode

/-! ### Accepted words -/

theorem Opcode.code_injective : Function.Injective Opcode.code := fun o o' h =>
  Option.some.inj (by rw [← Opcode.ofByte_code o, h, Opcode.ofByte_code])

/-- The low `n` bits hold all of a word whose other bits are zero. -/
theorem setWidth_extractLsb'_of_high_eq_zero {w n : Nat} {x : BitVec w} (hn : n ≤ w)
    (hzero : x.extractLsb' n (w - n) = 0) : (x.extractLsb' 0 n).setWidth w = x := by
  ext i hi
  by_cases hin : i < n
  · simp [hin, BitVec.getLsbD_eq_getElem hi]
  · have hbit := congrArg (fun y => y.getLsbD (i - n)) hzero
    have hlt : i - n < w - n := by omega
    have hsum : n + (i - n) = i := by omega
    simp only [BitVec.getLsbD_extractLsb', hlt, hsum] at hbit
    simpa [hin, BitVec.getLsbD_eq_getElem hi] using hbit.symm

/-- Fields that keep the columns of a row are written back by that row's command: what the operands do not hold is
zero (30_encoding.md R65). -/
theorem Instr.fields_ofFields {f : C64} {o : Opcode} (hop : f.op = o.code) (hzero : f.unusedZero o = true) :
    (Instr.ofFields f o).fields = f := by
  obtain ⟨op, g, z, a16, d32⟩ := f
  cases o with
  | prOffset =>
    simp only [C64.unusedZero, Bool.and_eq_true, beq_iff_eq] at hop hzero
    obtain ⟨⟨rfl, rfl⟩, ha⟩ := hzero
    have ha16 : (a16.extractLsb' 0 2).setWidth 16 = a16 := setWidth_extractLsb'_of_high_eq_zero (by decide) ha
    simp [Instr.ofFields, Instr.fields, Instr.opcode, hop, BlockId.bits_ofBits, ha16]
  | prEntry =>
    simp only [C64.unusedZero, Bool.and_eq_true, beq_iff_eq] at hop hzero
    obtain ⟨⟨⟨rfl, rfl⟩, ha⟩, rfl⟩ := hzero
    have ha16 : (a16.extractLsb' 0 5).setWidth 16 = a16 := setWidth_extractLsb'_of_high_eq_zero (by decide) ha
    simp [Instr.ofFields, Instr.fields, Instr.opcode, hop, ha16]
  | _ => simp_all [C64.unusedZero, Instr.ofFields, Instr.fields, Instr.opcode, KsId.bit_ofBit]

/-- A decoded word has the `OP` and the zero fields of its command's row. -/
theorem decode_eq_instr {cw : CommandWord} {i : Instr} (h : decode cw = .instr i) :
    ∃ o : Opcode, (C64.ofWord cw).op = o.code ∧ (C64.ofWord cw).unusedZero o = true ∧
      Instr.ofFields (C64.ofWord cw) o = i := by
  cases hop : Opcode.ofByte (cw.extractLsb' 0 8) with
  | none => simp [decode_of_ofByte_eq_none hop] at h
  | some o =>
    rw [decode_of_ofByte_eq_some hop] at h
    split at h
    · next hzero => exact ⟨o, (Opcode.code_of_ofByte hop).symm, hzero, Decoded.instr.inj h⟩
    · cases h

/-- Settles O9: the command's fields are the word's, used or zero. -/
theorem encodeOfDecode : Obligations.EncodeOfDecode := by
  intro cw i h
  obtain ⟨o, hop, hzero, rfl⟩ := decode_eq_instr h
  rw [encode, Instr.fields_ofFields hop hzero, C64.toWord_ofWord]

/-- Settles O11: two rows that match one word have the word's `OP` as theirs. -/
theorem maskRowsAgreeWithFields : Obligations.MaskRowsAgreeWithFields := by
  refine ⟨fun o cw => and_mask_eq_pattern_iff cw o, fun o o' cw hmatch hmatch' => Opcode.code_injective ?_⟩
  obtain ⟨hop, -⟩ := (and_mask_eq_pattern_iff cw o).mp hmatch
  obtain ⟨hop', -⟩ := (and_mask_eq_pattern_iff cw o').mp hmatch'
  exact hop.symm.trans hop'

/-- Settles O7: each of the nine is the word of its command; the other two fail in `OP` and in a reserved field. -/
theorem sampleWordsDecode : Obligations.SampleWordsDecode :=
  ⟨decode_encode .nop, decode_encode (.ksSeed .ks0 0x00001234), decode_encode (.ksNext .ks1),
    decode_encode (.xdWord .ks1 0x5243), decode_encode (.prSelect 0x00006000),
    decode_encode (.prOffset 0x00006000 .c), decode_encode (.prEntry 23), decode_encode (.cmLookup 0xFFFF),
    decode_encode .cmLen, decode_of_ofByte_eq_none rfl, decode_of_ofByte_eq_some (o := .ksNext) rfl⟩

end Sys2Proof

/-! ## What every command leaves unchanged (10_state.md, 60_exceptions.md)

The port and, but for CM.LOOKUP, the outputs of a lookup; and whether the command was rejected says which of the error
registers it wrote. -/

namespace Sys2Proof.Machine

section Frame

variable {i : Instr} {s t : State}

/-- The outputs of a lookup, which no other command writes (10_state.md R28, R30). -/
def State.lookup (s : State) : Bool × StopCause × Option TextUnit := (s.stop, s.scause, s.txt)

theorem State.stepOrReject_lookup_port (s : State) (g : KsId) (value : Half → Half) :
    (s.stepOrReject g value).lookup = s.lookup ∧ (s.stepOrReject g value).port = s.port := by
  cases hs : s.seeded g with
  | true => simp [State.stepOrReject_of_seeded value hs, State.lookup]
  | false => simp [State.stepOrReject_of_unseeded value hs, State.lookup]

theorem exec_keeps_lookup_port (hother : ∀ code, i ≠ .cmLookup code) (hexec : exec i s = .next t) :
    t.lookup = s.lookup ∧ t.port = s.port := by
  cases i with
  | cmLookup code => exact absurd rfl (hother code)
  | ksSeed g seed =>
    cases hexec
    simp [State.lookup]
  | ksNext g =>
    cases hexec
    exact s.stepOrReject_lookup_port g _
  | xdWord g w =>
    cases hexec
    exact s.stepOrReject_lookup_port g _
  | prEntry idx =>
    cases hexec
    split <;> exact ⟨rfl, rfl⟩
  | _ =>
    cases hexec
    exact ⟨rfl, rfl⟩

theorem exec_keeps_port (hexec : exec i s = .next t) : t.port = s.port := by
  by_cases hlookup : ∃ code, i = .cmLookup code
  · obtain ⟨code, rfl⟩ := hlookup
    cases hexec
    rfl
  · exact (exec_keeps_lookup_port (not_exists.mp hlookup) hexec).right

theorem answers_of_exec (hexec : exec i s = .next t) : s.Answers (execCause s i) t := by
  obtain ⟨u, hexec', hanswers⟩ := exec_answers i s
  rwa [Host.Outcome.next.inj (hexec.symm.trans hexec')]

/-- A rejected command wrote nothing but `REJ`, `ERR` and `ECODE` (60_exceptions.md R161). -/
theorem eq_reject_of_exec (hexec : exec i s = .next t) (hrej : t.rej = true) :
    ∃ c, execCause s i = some c ∧ t = s.reject c := by
  have hanswers := answers_of_exec hexec
  generalize execCause s i = cause at hanswers
  cases hanswers with
  | rejected c => exact ⟨c, rfl, rfl⟩
  | accepted hacc => exact absurd (hrej.symm.trans hacc) (by decide)

/-- An accepted one keeps `ERR` and `ECODE` (60_exceptions.md R162). -/
theorem exec_accepted_keeps_err (hexec : exec i s = .next t) (hrej : t.rej = false) :
    t.err = s.err ∧ t.ecode = s.ecode := by
  have hanswers := answers_of_exec hexec
  generalize execCause s i = cause at hanswers
  cases hanswers with
  | rejected c => exact absurd hrej (by simp)
  | accepted hacc herr hecode => exact ⟨herr, hecode⟩

/-- What taking a word can be. -/
theorem takeWord_next_cases {cw : CommandWord} (h : takeWord cw s = .next t) :
    (∃ c, decode cw = .reject c ∧ t = s.reject c) ∨ ∃ i, decode cw = .instr i ∧ exec i s = .next t := by
  cases hdecode : decode cw with
  | reject c =>
    simp only [takeWord, hdecode, Host.Outcome.next.injEq] at h
    exact .inl ⟨c, rfl, h.symm⟩
  | instr i =>
    simp only [takeWord, hdecode] at h
    exact .inr ⟨i, rfl, h⟩

end Frame

/-- Settles O22: the frame lemmas of the single registers together. -/
theorem commandFrame : Obligations.CommandFrame := by
  intro i s
  obtain ⟨t, hexec⟩ := exec_next i s
  refine ⟨t, hexec, exec_keeps_charTable hexec, exec_keeps_phase hexec, exec_keeps_port hexec,
    fun g hnamed => exec_keeps_unnamed_gen hnamed hexec, fun hother => ?_, fun hi => ?_, fun g d hi => ?_,
    fun hrej => ?_, exec_accepted_keeps_err hexec⟩
  · simpa [State.lookup] using (exec_keeps_lookup_port hother hexec).left
  · subst hi
    cases hexec
    rfl
  · subst hi
    cases hexec
    simp
  · obtain ⟨c, -, rfl⟩ := eq_reject_of_exec hexec hrej
    rfl

end Sys2Proof.Machine

/-! ## The invariant of the block (10_state.md, 43_charmap.md)

During a run the invariant falls into the registers that are written together: those of a lookup, those of acceptance
and rejection, and the result. Each group is kept by every command for its own reason. -/

namespace Sys2Proof.Machine

section Inv

variable {i : Instr} {s t : State}

theorem toNat_zext32_le {n : Nat} (v : BitVec n) (hn : n ≤ 16) : (zext32 v).toNat ≤ 0x10000 := by
  have hv : v.toNat < 2 ^ 16 := v.isLt.trans_le (Nat.pow_le_pow_right Nat.two_pos hn)
  rw [BitVec.toNat_setWidth_of_le (by omega)]
  omega

theorem State.stepOrReject_res_le (g : KsId) (value : Half → Half) (hres : s.res.toNat ≤ 0x10000) :
    (s.stepOrReject g value).res.toNat ≤ 0x10000 := by
  cases hs : s.seeded g with
  | true =>
    rw [State.stepOrReject_of_seeded value hs]
    exact toNat_zext32_le _ le_rfl
  | false => rwa [State.stepOrReject_of_unseeded value hs]

/-- Every result is a half, a small number or the length of the table. -/
theorem exec_res_le (hexec : exec i s = .next t) (hres : s.res.toNat ≤ 0x10000)
    (htable : s.charTable.length ≤ Config.maxTableLength) : t.res.toNat ≤ 0x10000 := by
  cases i with
  | nop =>
    cases hexec
    exact hres
  | ksSeed g seed =>
    cases hexec
    simpa using hres
  | ksNext g =>
    cases hexec
    exact State.stepOrReject_res_le g _ hres
  | xdWord g w =>
    cases hexec
    exact State.stepOrReject_res_le g _ hres
  | prSelect pv =>
    cases hexec
    exact (Nat.mod_le _ _).trans ((sel pv).isLt.le.trans (by decide))
  | prOffset pv blk =>
    rw [res_of_exec_prOffset hexec, toNat_blockOffset]
    have hpos := (pos Config.permRom[sel pv] blk).isLt
    omega
  | prEntry idx =>
    cases hexec
    split
    · exact toNat_zext32_le _ (by decide)
    · exact hres
  | cmLookup code =>
    cases hexec
    exact toNat_zext32_le code le_rfl
  | cmLen =>
    cases hexec
    exact (Nat.mod_le _ _).trans htable

/-- The invariant of the registers that only a lookup writes, against the table. -/
structure State.LookupInv (s : State) : Prop where
  stop_eq : s.stop = isStop s.scause
  txt_of_stop : s.stop = true → s.txt = none
  txt_mem : ∀ u, s.txt = some u → ∃ n, 0 < n ∧ n < 0xFFFF ∧ s.charTable[n]? = some u

/-- The invariant of the registers that rejection and acceptance write. -/
structure State.ErrInv (s : State) : Prop where
  err_of_rej : s.rej = true → s.err = true
  err_eq : s.err = s.ecode.isSome

/-- A lookup meets the invariant whatever was there before: a unit comes only with the cause OK (43_charmap.md R110). -/
theorem exec_cmLookup_lookupInv {code : Half} (hexec : exec (.cmLookup code) s = .next t) : t.LookupInv := by
  cases hexec
  refine ⟨rfl, fun hstop => textUnitOf_eq_none_of_stop (of_decide_eq_true hstop), fun u hu => ?_⟩
  obtain ⟨hok, hunit⟩ := textUnitOf_eq_some hu
  obtain ⟨hend, hnull, -⟩ := (stopCauseOf_eq_ok_iff _ _).mp hok
  exact ⟨code.toNat, by bv_omega, by bv_omega, hunit⟩

theorem State.LookupInv.congr (h : s.LookupInv) (hlookup : t.lookup = s.lookup) (htable : t.charTable = s.charTable) :
    t.LookupInv := by
  obtain ⟨hstop, hscause, htxt⟩ : t.stop = s.stop ∧ t.scause = s.scause ∧ t.txt = s.txt := by
    simpa [State.lookup] using hlookup
  obtain ⟨hstop_eq, htxt_of_stop, htxt_mem⟩ := h
  exact ⟨by rw [hstop, hscause, hstop_eq], by rwa [hstop, htxt], by rwa [htxt, htable]⟩

theorem exec_keeps_lookupInv (h : s.LookupInv) (hexec : exec i s = .next t) : t.LookupInv := by
  by_cases hlookup : ∃ code, i = .cmLookup code
  · obtain ⟨code, rfl⟩ := hlookup
    exact exec_cmLookup_lookupInv hexec
  · exact h.congr (exec_keeps_lookup_port (not_exists.mp hlookup) hexec).left (exec_keeps_charTable hexec)

theorem State.errInv_reject (s : State) (c : RejectCode) : (s.reject c).ErrInv := ⟨fun _ => rfl, rfl⟩

theorem exec_keeps_errInv (h : s.ErrInv) (hexec : exec i s = .next t) : t.ErrInv := by
  cases hrej : t.rej with
  | true =>
    obtain ⟨c, -, rfl⟩ := eq_reject_of_exec hexec hrej
    exact s.errInv_reject c
  | false =>
    obtain ⟨herr, hecode⟩ := exec_accepted_keeps_err hexec hrej
    exact ⟨fun hrej' => absurd (hrej.symm.trans hrej') (by decide), by rw [herr, hecode, h.err_eq]⟩

/-- The invariant during a run, by the registers that are written together. -/
structure State.RunInv (s : State) : Prop where
  running : s.phase = .running
  lookup : s.LookupInv
  err : s.ErrInv
  res_le : s.res.toNat ≤ 0x10000
  table_le : s.charTable.length ≤ Config.maxTableLength

theorem State.RunInv.inv (h : s.RunInv) : s.Inv where
  stop_eq := h.lookup.stop_eq
  txt_of_stop := h.lookup.txt_of_stop
  err_of_rej := h.err.err_of_rej
  err_eq := h.err.err_eq
  res_le := h.res_le
  table_le := h.table_le
  fresh_reset hfresh := absurd (h.running.symm.trans hfresh) (by decide)
  txt_mem _ := h.lookup.txt_mem

/-- A run begins with the first word after a reset, when there is no text unit yet, and is not resumed after a change
of the table (20_memory.md R45). -/
theorem State.Inv.runInv_setRunning (h : s.Inv) (hphase : s.phase ≠ .reloaded) (rest : List HostAction) :
    State.RunInv { s with port := rest, phase := .running } where
  running := rfl
  lookup :=
    { stop_eq := h.stop_eq
      txt_of_stop := h.txt_of_stop
      txt_mem := fun u hu => by
        cases hp : s.phase with
        | fresh =>
          obtain ⟨-, -, -, htxt, -⟩ := h.fresh_reset hp
          exact absurd (htxt.symm.trans hu) (by simp)
        | running => exact h.txt_mem hp u hu
        | reloaded => exact absurd hp hphase }
  err := ⟨h.err_of_rej, h.err_eq⟩
  res_le := h.res_le
  table_le := h.table_le

theorem takeWord_keeps_runInv {cw : CommandWord} (h : s.RunInv) (htake : takeWord cw s = .next t) : t.RunInv := by
  obtain ⟨c, -, rfl⟩ | ⟨i, -, hexec⟩ := takeWord_next_cases htake
  · exact ⟨h.running, h.lookup.congr rfl rfl, s.errInv_reject c, h.res_le, h.table_le⟩
  · exact ⟨(exec_keeps_phase hexec).trans h.running, exec_keeps_lookupInv h.lookup hexec,
      exec_keeps_errInv h.err hexec, exec_res_le hexec h.res_le h.table_le,
      exec_keeps_charTable hexec ▸ h.table_le⟩

theorem State.takeReset_atResetValues (s : State) : s.takeReset.atResetValues :=
  ⟨rfl, rfl, rfl, rfl, rfl, rfl, rfl, rfl, rfl⟩

theorem State.takeReset_inv (htable : s.charTable.length ≤ Config.maxTableLength) : s.takeReset.Inv where
  stop_eq := rfl
  txt_of_stop _ := rfl
  err_of_rej := id
  err_eq := rfl
  res_le := Nat.zero_le _
  table_le := htable
  fresh_reset _ := s.takeReset_atResetValues
  txt_mem hrunning := by cases hrunning

/-- Changing the table leaves the registers, and no run is under way after it. -/
theorem State.Inv.setTable (h : s.Inv) {table : List TextUnit} (hlen : table.length ≤ Config.maxTableLength)
    (rest : List HostAction) :
    State.Inv { s with port := rest, charTable := table,
                       phase := if s.phase = .fresh then .fresh else .reloaded } where
  stop_eq := h.stop_eq
  txt_of_stop := h.txt_of_stop
  err_of_rej := h.err_of_rej
  err_eq := h.err_eq
  res_le := h.res_le
  table_le := hlen
  fresh_reset hfresh := h.fresh_reset (by by_contra hne; simp [hne] at hfresh)
  txt_mem hrunning := by by_cases hp : s.phase = .fresh <;> simp [hp] at hrunning

end Inv

/-- Settles O33: by the cases of a step; a word takes the invariant of a run, which each group of registers keeps. -/
theorem stepKeepsBlockInv : Obligations.StepKeepsBlockInv := by
  intro s t h hstep
  obtain ⟨-, rfl⟩ | ⟨cw, rest, -, hphase, htake⟩ | ⟨rest, -, rfl⟩ | ⟨table, rest, -, hlen, rfl⟩ :=
    step_next_cases hstep
  · exact h
  · exact (takeWord_keeps_runInv (h.runInv_setRunning hphase rest) htake).inv
  · exact State.takeReset_inv h.table_le
  · exact h.setTable hlen rest

/-- Settles O34: the configured table is cut to the greatest length, and every other register has its reset value. -/
theorem resetMeetsBlockInv : Obligations.ResetMeetsBlockInv :=
  State.takeReset_inv (s := State.reset) (List.length_take_le _ _)

end Sys2Proof.Machine

/-! ## Reset and status (70_reset_and_hazards.md R180, 10_state.md R29) -/

namespace Sys2Proof.Machine

/-- `ST` reads 0 when its fields are at their reset values. -/
theorem State.st_of_atResetValues {s : State} (h : s.atResetValues) : s.st = 0 := by
  obtain ⟨hseeded0, hseeded1, -, -, hstop, hrej, herr, hecode, hscause⟩ := h
  rw [State.st, hseeded0, hseeded1, hstop, hrej, herr, hecode, hscause]
  rfl

/-- Settles O1: every register as `State.reset` writes it. -/
theorem resetRegisterValues : Obligations.ResetRegisterValues :=
  ⟨rfl, rfl, rfl, rfl, rfl, rfl, rfl, rfl, rfl, rfl, rfl,
    State.st_of_atResetValues (State.takeReset_atResetValues State.reset)⟩

/-- `ST.SCAUSE` is bits 11:10, above the two `SEEDED` bits and the low byte (10_state.md R29). -/
theorem State.st_scause (s : State) : s.st.extractLsb' 10 2 = scauseBits s.scause := by
  rw [State.st]
  iterate 7 rw [BitVec.extractLsb'_append_eq_of_le (by decide)]
  exact BitVec.extractLsb'_append_eq_right

/-- The bits of `ST` above `SCAUSE` are reserved and read 0 (10_state.md R29). -/
theorem State.st_reserved (s : State) : s.st.extractLsb' 12 20 = 0 := by
  rw [State.st]
  iterate 8 rw [BitVec.extractLsb'_append_eq_of_le (by decide)]
  exact BitVec.extractLsb'_eq_self

/-- The flags of `ST` above `REJ`, and the reserved bit among them (10_state.md R29). -/
theorem State.st_flags (s : State) :
    s.st.getLsbD 2 = s.err ∧ s.st.getLsbD 3 = false ∧ s.st.getLsbD 8 = s.seeded0 ∧ s.st.getLsbD 9 = s.seeded1 := by
  simp only [State.st, BitVec.getLsbD_append]
  simp [flagBit]

/-- Settles O3: each field is cut out of the concatenation at the sum of the widths below it, and the numbers of the
codes are those of their tables. -/
theorem statusWordLayout : Obligations.StatusWordLayout := by
  intro s
  obtain ⟨herr, hreserved, hseeded0, hseeded1⟩ := s.st_flags
  refine ⟨s.st_stop, s.rejBit_response, herr, hreserved, ?_, hseeded0, hseeded1, ?_, s.st_reserved⟩
  · rw [s.st_ecode]
    rcases s.ecode with _ | c
    · rfl
    · cases c <;> rfl
  · rw [s.st_scause]
    cases s.scause <;> rfl

end Sys2Proof.Machine

/-! ## The step by the host's next action (48_host_sequences.md R150) -/

namespace Sys2Proof.Machine

section Step

variable {s : State} {rest : List HostAction}

theorem step_of_port_nil (hport : s.port = []) : step s = .next s := by
  rw [step, portStep, hport]

theorem step_of_port_reset (hport : s.port = .reset :: rest) :
    step s = .next (State.takeReset { s with port := rest }) := by
  rw [step, portStep, hport]
  rfl

theorem step_of_port_loadTable {table : List TextUnit} (hport : s.port = .loadTable table :: rest) :
    step s = if 65536 < table.length then .refused .tableTooLong
      else .next { s with port := rest, charTable := table,
                          phase := if s.phase = .fresh then .fresh else .reloaded } := by
  rw [step, portStep, hport]
  by_cases hlen : table.length ≤ 65536
  · rw [if_neg (Nat.not_lt.mpr hlen)]
    exact if_pos hlen
  · rw [if_pos (Nat.not_le.mp hlen)]
    exact if_neg hlen

theorem step_of_port_commandEarly {cw : CommandWord} (hport : s.port = .commandEarly cw :: rest) :
    step s = .refused .commandBeforeResponse := by
  rw [step, portStep, hport]
  rfl

theorem step_of_port_resetDuring {cw : CommandWord} (hport : s.port = .resetDuring cw :: rest) :
    step s = .refused .resetDuringCommand := by
  rw [step, portStep, hport]
  rfl

theorem step_of_port_command_reloaded {cw : CommandWord} (hport : s.port = .command cw :: rest)
    (hphase : s.phase = .reloaded) : step s = .refused .tableChangedDuringRun := by
  rw [step, portStep, hport]
  change takeCommand cw { s with port := rest } = _
  rw [takeCommand, hphase]

end Step

/-- Settles O4: the word is taken, and its decoding selects the command. -/
theorem stepRunsDecodedCommand : Obligations.StepRunsDecodedCommand := by
  intro s cw rest i hport hphase hdecode
  rw [step_of_port_command hport hphase, takeWord, hdecode]

/-- Settles O5: the step's equation for each action. -/
theorem waitsAndRefusesMisuse : Obligations.WaitsAndRefusesMisuse :=
  ⟨fun _ => step_of_port_nil, fun _ _ _ => step_of_port_commandEarly, fun _ _ _ => step_of_port_resetDuring,
    fun _ _ _ => step_of_port_command_reloaded, fun _ _ _ => step_of_port_loadTable⟩

/-- Settles O42: a system is stepped at one place of its list. -/
theorem blocksIndependent : Obligations.BlocksIndependent := by
  intro sys n s t hblock hstep
  have hn : n < sys.length := (List.getElem?_eq_some_iff.mp hblock).1
  refine ⟨sys.set n t, ?_, List.length_set, List.getElem?_set_self hn, fun m hm => List.getElem?_set_ne hm.symm⟩
  simp only [stepBlock, hblock, hstep]

end Sys2Proof.Machine

/-! ## `SEEDED` and `ERR` (10_state.md R26, R31) -/

namespace Sys2Proof.Machine

section Seeded

variable {s t : State} {g : KsId} {cw : CommandWord}

theorem State.seeded_setPortPhase (s : State) (port : List HostAction) (phase : RunPhase) (g : KsId) :
    State.seeded { s with port := port, phase := phase } g = s.seeded g := by
  cases g <;> rfl

theorem State.seeded_reject (s : State) (g : KsId) (c : RejectCode) : (s.reject c).seeded g = s.seeded g := by
  cases g <;> rfl

theorem State.stepOrReject_seeded (s : State) (g : KsId) (value : Half → Half) :
    (s.stepOrReject g value).seeded g = s.seeded g := by
  cases hs : s.seeded g with
  | true => cases g <;> simpa [State.stepOrReject_of_seeded value hs, State.seeded] using hs
  | false => rw [State.stepOrReject_of_unseeded value hs, State.seeded_reject, hs]

/-- Only a command that names `g` seeds it. -/
theorem seedsKs_of_not_named {i : Instr} (hdecode : decode cw = .instr i) (hnamed : namedKs i ≠ some g) :
    seedsKs g cw = false := by
  cases i with
  | ksSeed g' seed => simpa [seedsKs, hdecode, namedKs] using hnamed
  | _ => simp [seedsKs, hdecode]

/-- A word sets `SEEDED` of the generator it seeds, and clears none (10_state.md R26). -/
theorem seeded_of_takeWord (htake : takeWord cw s = .next t) : t.seeded g = (s.seeded g || seedsKs g cw) := by
  obtain ⟨c, hdecode, rfl⟩ | ⟨i, hdecode, hexec⟩ := takeWord_next_cases htake
  · simp [seedsKs, hdecode, State.seeded_reject]
  by_cases hnamed : namedKs i = some g
  · cases i with
    | ksSeed g' seed =>
      cases hnamed
      cases hexec
      cases g <;> simp [seedsKs, hdecode, State.seeded]
    | ksNext g' =>
      cases hnamed
      cases hexec
      simp [seedsKs, hdecode, State.stepOrReject_seeded]
    | xdWord g' w =>
      cases hnamed
      cases hexec
      simp [seedsKs, hdecode, State.stepOrReject_seeded]
    | _ => cases hnamed
  · rw [seedsKs_of_not_named hdecode hnamed, Bool.or_false]
    exact (exec_keeps_unnamed_gen hnamed hexec).2

/-- `ERR` is sticky (10_state.md R31). -/
theorem err_of_takeWord (htake : takeWord cw s = .next t) (herr : s.err = true) : t.err = true := by
  obtain ⟨u, htake', hanswers⟩ := takeWord_answers cw s
  obtain rfl : t = u := Host.Outcome.next.inj (htake.symm.trans htake')
  generalize rejectionCause s cw = cause at hanswers
  cases hanswers with
  | rejected c => rfl
  | accepted _ herr' _ => exact herr'.trans herr

end Seeded

/-- Settles O2: reset writes every register; of the other steps only a command writes `ERR` and `SEEDED`. -/
theorem onlyResetClearsErrAndSeeded : Obligations.OnlyResetClearsErrAndSeeded := by
  refine ⟨fun s rest hport => ?_, fun s t hstep hreset => ?_, fun _ _ _ => step_of_port_resetDuring⟩
  · have hvalues := State.takeReset_atResetValues { s with port := rest }
    exact ⟨_, step_of_port_reset hport, hvalues, rfl, rfl, State.st_of_atResetValues hvalues, rfl, rfl⟩
  · obtain ⟨-, rfl⟩ | ⟨cw, rest, -, -, htake⟩ | ⟨rest, hport, -⟩ | ⟨table, rest, -, -, rfl⟩ := step_next_cases hstep
    · exact ⟨id, id, id⟩
    · have hseeded (g : KsId) (hs : s.seeded g = true) : t.seeded g = true := by
        rw [seeded_of_takeWord htake, State.seeded_setPortPhase, hs, Bool.true_or]
      exact ⟨fun herr => err_of_takeWord htake herr, hseeded .ks0, hseeded .ks1⟩
    · exact absurd hport (hreset rest)
    · exact ⟨id, id, id⟩

end Sys2Proof.Machine

/-! ## The state of an unseeded generator (10_state.md R26) -/

namespace Sys2Proof.Machine

section Unseeded

variable {s : State} {g : KsId} {v : Word}

/-- Two outcomes that are the same but for `KS[g]`, if `g` is not seeded. -/
inductive AlikeUnseeded (g : KsId) (v : Word) : (o o' : Host.Outcome State Fault Refusal) → Prop
  | same (o : Host.Outcome State Fault Refusal) : AlikeUnseeded g v o o
  | ks {t : State} (hseeded : t.seeded g = false) : AlikeUnseeded g v (.next t) (.next (t.setKs g v))

/-- No response shows `KS` (10_state.md R32). -/
theorem State.response_setKs (s : State) (g : KsId) (v : Word) : (s.setKs g v).response = s.response := by
  cases g <;> rfl

theorem State.setKs_eq_withGen (s : State) (g : KsId) (v : Word) : s.setKs g v = s.withGen g v (s.seeded g) := by
  cases g <;> rfl

theorem State.reject_setKs (s : State) (g : KsId) (v : Word) (c : RejectCode) :
    (s.setKs g v).reject c = (s.reject c).setKs g v := by
  cases g <;> rfl

theorem State.seeded_setKs (s : State) (g : KsId) (v : Word) : (s.setKs g v).seeded g = s.seeded g := by
  cases g <;> rfl

theorem stepOrReject_alikeUnseeded (value : Half → Half) (hs : s.seeded g = false) :
    AlikeUnseeded g v (.next (s.stepOrReject g value)) (.next ((s.setKs g v).stepOrReject g value)) := by
  rw [State.stepOrReject_of_unseeded value hs, State.stepOrReject_of_unseeded value ((s.seeded_setKs g v).trans hs),
    State.reject_setKs]
  exact .ks ((s.seeded_reject g _).trans hs)

/-- A seed overwrites the state, a step is rejected before it reads it, and no other command names it. -/
theorem exec_alikeUnseeded (i : Instr) (hs : s.seeded g = false) :
    AlikeUnseeded g v (exec i s) (exec i (s.setKs g v)) := by
  by_cases hnamed : namedKs i = some g
  · cases i with
    | ksSeed g' seed =>
      cases hnamed
      cases g <;> exact .same _
    | ksNext g' =>
      cases hnamed
      exact stepOrReject_alikeUnseeded _ hs
    | xdWord g' w =>
      cases hnamed
      exact stepOrReject_alikeUnseeded _ hs
    | _ => cases hnamed
  · obtain ⟨t, hexec⟩ := exec_next i s
    have hseeded := (exec_keeps_unnamed_gen hnamed hexec).2
    rw [hexec, State.setKs_eq_withGen, exec_withGen hnamed hexec, ← hseeded, ← State.setKs_eq_withGen]
    exact .ks (hseeded.trans hs)

theorem takeWord_alikeUnseeded (cw : CommandWord) (hs : s.seeded g = false) :
    AlikeUnseeded g v (takeWord cw s) (takeWord cw (s.setKs g v)) := by
  cases hdecode : decode cw with
  | reject c =>
    simp only [takeWord, hdecode, State.reject_setKs]
    exact .ks ((s.seeded_reject g c).trans hs)
  | instr i =>
    simp only [takeWord, hdecode]
    exact exec_alikeUnseeded i hs

theorem step_alikeUnseeded (hs : s.seeded g = false) : AlikeUnseeded g v (step s) (step (s.setKs g v)) := by
  have hport' : (s.setKs g v).port = s.port := s.setKs_port g v
  have hphase' : (s.setKs g v).phase = s.phase := s.setKs_phase g v
  cases hport : s.port with
  | nil =>
    rw [step_of_port_nil hport, step_of_port_nil (hport'.trans hport)]
    exact .ks hs
  | cons a rest =>
    cases a with
    | command cw =>
      by_cases hphase : s.phase = .reloaded
      · rw [step_of_port_command_reloaded hport hphase,
          step_of_port_command_reloaded (hport'.trans hport) (hphase'.trans hphase)]
        exact .same _
      · have htaken := takeWord_alikeUnseeded (s := { s with port := rest, phase := .running }) (g := g) (v := v) cw
          ((s.seeded_setPortPhase rest .running g).trans hs)
        rw [step_of_port_command hport hphase, step_of_port_command (hport'.trans hport) (hphase' ▸ hphase)]
        cases g <;> exact htaken
    | reset =>
      rw [step_of_port_reset hport, step_of_port_reset (hport'.trans hport)]
      cases g <;> exact .same _
    | loadTable table =>
      rw [step_of_port_loadTable hport, step_of_port_loadTable (hport'.trans hport)]
      split
      · exact .same _
      · cases g <;> exact .ks hs
    | commandEarly cw =>
      rw [step_of_port_commandEarly hport, step_of_port_commandEarly (hport'.trans hport)]
      exact .same _
    | resetDuring cw =>
      rw [step_of_port_resetDuring hport, step_of_port_resetDuring (hport'.trans hport)]
      exact .same _

end Unseeded

/-- Settles O24: the two steps are alike, and responses do not show `KS`. -/
theorem unseededStateUnobservable : Obligations.UnseededStateUnobservable := by
  intro s g v hs
  have halike := step_alikeUnseeded (v := v) hs
  refine ⟨fun t hstep => ?_, fun r hstep => ?_⟩
  · rw [hstep] at halike
    generalize step (s.setKs g v) = o at halike
    cases halike with
    | same => exact ⟨t, rfl, rfl, .inl rfl⟩
    | ks hseeded => exact ⟨t.setKs g v, rfl, t.response_setKs g v, .inr ⟨rfl, hseeded⟩⟩
  · rw [hstep] at halike
    generalize step (s.setKs g v) = o at halike
    cases halike
    rfl

end Sys2Proof.Machine

/-! ## Commands on the tables, and the hidden half (20_memory.md R43, R44; 10_state.md R33) -/

namespace Sys2Proof.Machine

/-- Settles O25: such a command reads its operand and the tables, which it does not write. -/
theorem tableReadsIdempotent : Obligations.TableReadsIdempotent := by
  intro i s hnamed
  cases i with
  | ksSeed g seed => cases hnamed
  | ksNext g => cases hnamed
  | xdWord g w => cases hnamed
  | prEntry idx =>
    refine ⟨_, rfl, ?_⟩
    by_cases hidx : idx.toNat < 24 <;> simp [exec, execPrEntry, hidx, State.setRes, State.accept, State.reject]
  | _ => exact ⟨_, rfl, rfl⟩

/-- Modulo 2^16 the generator is a generator of its own. -/
theorem extractLsb'_lcg (s : Word) : (lcg s).extractLsb' 0 16 = 0x4E6D * s.extractLsb' 0 16 + 0x6073 := by
  have hlow (x : Word) : x.extractLsb' 0 16 = x.setWidth 16 := (BitVec.setWidth_eq_extractLsb' (by decide)).symm
  rw [hlow, hlow, lcg, BitVec.setWidth_add _ _ (by decide), BitVec.setWidth_mul _ _ (by decide)]
  rfl

/-- Settles O27: 0 and 0xFFFF have one upper half and different next words. -/
theorem lowHalfIsHiddenState : Obligations.LowHalfIsHiddenState :=
  ⟨⟨0x00000000, 0x0000FFFF, by decide⟩, fun a b h => by rw [extractLsb'_lcg, extractLsb'_lcg, h]⟩

end Sys2Proof.Machine

/-! ## Runs of words and responses (41_xor_decrypt.md R92, 20_memory.md R55) -/

namespace Sys2Proof.Machine

/-- Settles O29: the decrypted list place by place. -/
theorem decryptInLockStep : Obligations.DecryptInLockStep := by
  intro g seed ws s hphase
  obtain ⟨t, hrun, ht⟩ := decryptStream_eq_mapIdx g seed ws hphase
  refine ⟨_, t, hrun, List.length_mapIdx, fun i w hw => ?_, ht.ks_eq⟩
  rw [List.getElem?_mapIdx, hw, Option.map_some]

section Runs

variable {s : State} {table : List TextUnit}

/-- A word leaves the run's phase, the port and the table, accepted or rejected. -/
theorem takeWord_frame {cw : CommandWord} {t : State} (htake : takeWord cw s = .next t) :
    t.phase = s.phase ∧ t.port = s.port ∧ t.charTable = s.charTable := by
  obtain ⟨c, -, rfl⟩ | ⟨i, -, hexec⟩ := takeWord_next_cases htake
  · exact ⟨rfl, rfl, rfl⟩
  · exact ⟨exec_keeps_phase hexec, exec_keeps_port hexec, exec_keeps_charTable hexec⟩

theorem issue_ready (cw : CommandWord) (hs : s.ReadyWith table) : ∃ t, issue cw s = .next t ∧ t.ReadyWith table := by
  obtain ⟨t, hissue⟩ := issue_next (cw := cw) hs.phase_ne
  obtain ⟨hphase, -, htable⟩ := takeWord_frame ((issue_eq hs.phase_ne).symm.trans hissue)
  exact ⟨t, hissue, by simp [hphase], htable.trans hs.charTable_eq⟩

/-- Every run answers each of its words. -/
theorem runWords_ready (cws : List CommandWord) (hs : s.ReadyWith table) :
    ∃ rs t, runWords cws s = .next (rs, t) ∧ rs.length = cws.length ∧ t.ReadyWith table := by
  induction cws generalizing s with
  | nil => exact ⟨[], s, rfl, rfl, hs⟩
  | cons cw cws ih =>
    obtain ⟨t, hissue, ht⟩ := issue_ready cw hs
    obtain ⟨rs, u, hrun, hlen, hu⟩ := ih ht
    exact ⟨t.response :: rs, u, runWords_cons hissue hrun, congrArg Nat.succ hlen, hu⟩

theorem runWords_cons_eq_next {cw : CommandWord} {cws : List CommandWord} {rs : List Response} {u : State}
    (h : runWords (cw :: cws) s = .next (rs, u)) :
    ∃ t rs', issue cw s = .next t ∧ runWords cws t = .next (rs', u) ∧ rs = t.response :: rs' := by
  rw [runWords] at h
  split at h
  · cases h
  · cases h
  next t hissue =>
    split at h
    next rs' u' hrun =>
      cases h
      exact ⟨t, rs', hissue, hrun, rfl⟩
    · cases h
    · cases h

/-- A run goes on from the state its first part ends in. -/
theorem runWords_append {before after : List CommandWord} {rs₁ rs₂ : List Response} {m u : State}
    (hbefore : runWords before s = .next (rs₁, m)) (hafter : runWords after m = .next (rs₂, u)) :
    runWords (before ++ after) s = .next (rs₁ ++ rs₂, u) := by
  induction before generalizing s rs₁ with
  | nil =>
    cases hbefore
    exact hafter
  | cons cw before ih =>
    obtain ⟨t, rs, hissue, hrun, rfl⟩ := runWords_cons_eq_next hbefore
    exact runWords_cons hissue (ih hrun)

/-- The last response shows the state the run ends in (10_state.md R32). -/
theorem getLast?_runWords {cws : List CommandWord} {rs : List Response} {u : State}
    (hrun : runWords cws s = .next (rs, u)) (hne : cws ≠ []) : rs.getLast? = some u.response := by
  induction cws generalizing s rs with
  | nil => exact absurd rfl hne
  | cons cw cws ih =>
    obtain ⟨t, rs', -, hrun', rfl⟩ := runWords_cons_eq_next hrun
    cases cws with
    | nil =>
      cases hrun'
      rfl
    | cons cw' cws =>
      rw [List.getLast?_cons, ih hrun' (List.cons_ne_nil _ _), Option.getD_some]

/-- A byte of a word's little-endian bytes is eight of its bits. -/
theorem getElem?_bytesOf_toNat {n w k : Nat} (hk : k < n) (v : BitVec w) :
    (bytesOf n v.toNat)[k]? = some (v.extractLsb' (8 * k) 8) := by
  rw [getElem?_bytesOf hk, BitVec.extractLsb', Nat.shiftRight_eq_div_pow, Nat.pow_mul]

end Runs

/-- Settles O32: both parts of a run answer each of their words, and the run is the one after the other. -/
theorem responsesInIssueOrder : Obligations.ResponsesInIssueOrder := by
  refine ⟨fun cws s hphase => ?_, fun r k hk => ⟨getElem?_bytesOf_toNat hk r.res, getElem?_bytesOf_toNat hk r.st⟩⟩
  obtain ⟨rs, t, hrun, hlen, ht⟩ := runWords_ready cws ⟨hphase, rfl⟩
  refine ⟨rs, t, hrun, hlen, ht.charTable_eq, fun before after hsplit => ?_⟩
  obtain ⟨rs₁, m, hbefore, -, hm⟩ := runWords_ready before (s := s) ⟨hphase, rfl⟩
  obtain ⟨rs₂, u, hafter, -, -⟩ := runWords_ready after hm
  have hwhole := runWords_append hbefore hafter
  rw [← hsplit, hrun] at hwhole
  cases hwhole
  exact ⟨rs₁, rs₂, m, rfl, hbefore, hafter, getLast?_runWords hbefore⟩

end Sys2Proof.Machine

/-! ## A host that keeps its duties (48_host_sequences.md R150)

The duties from a state on are those of its next action and the duties from the next state on, so a step hands them on.
-/

namespace Sys2Proof.Machine

theorem run_succ_of_step (M : Host.Core) {s t : M.State} (hstep : M.step s = .next t) (k : Nat) :
    M.run (k + 1) s = M.run k t := by
  rw [Host.Core.run, hstep]

/-- What every step from a good state leads to holds after any number of steps. -/
theorem run_of_step {P : State → Prop} (hstep : ∀ s, P s → ∃ t, step s = .next t ∧ P t) (k : Nat) {s : State}
    (hs : P s) : ∃ t, Host.Core.run core k s = .next t ∧ P t := by
  induction k generalizing s with
  | zero => exact ⟨s, rfl, hs⟩
  | succ k ih =>
    obtain ⟨t, ht, hPt⟩ := hstep s hs
    obtain ⟨u, hu, hPu⟩ := ih hPt
    exact ⟨u, (run_succ_of_step core ht k).trans hu, hPu⟩

section Duties

variable {s t : State}

theorem hostObeys_reset (phase : RunPhase) (rest : List HostAction) :
    hostObeys phase (.reset :: rest) = hostObeys .fresh rest := by
  cases phase <;> rfl

theorem hostObeys_command (phase : RunPhase) (cw : CommandWord) (rest : List HostAction) :
    hostObeys phase (.command cw :: rest) = (decide (phase ≠ .reloaded) && hostObeys .running rest) := by
  cases phase <;> rfl

theorem hostObeys_loadTable (phase : RunPhase) (table : List TextUnit) (rest : List HostAction) :
    hostObeys phase (.loadTable table :: rest) =
      (decide (table.length ≤ Config.maxTableLength) &&
        hostObeys (if phase = .fresh then .fresh else .reloaded) rest) := by
  cases phase <;> rfl

theorem hostObeys_commandEarly (phase : RunPhase) (cw : CommandWord) (rest : List HostAction) :
    hostObeys phase (.commandEarly cw :: rest) = false := by
  cases phase <;> rfl

theorem hostObeys_resetDuring (phase : RunPhase) (cw : CommandWord) (rest : List HostAction) :
    hostObeys phase (.resetDuring cw :: rest) = false := by
  cases phase <;> rfl

theorem step_next_of_hostObeys (h : s.hostObeys = true) : ∃ t, step s = .next t := by
  rw [State.hostObeys] at h
  cases hport : s.port with
  | nil => exact ⟨s, step_of_port_nil hport⟩
  | cons a rest =>
    rw [hport] at h
    cases a with
    | command cw =>
      rw [hostObeys_command, Bool.and_eq_true, decide_eq_true_iff] at h
      rw [step_of_port_command hport h.left]
      exact takeWord_next cw _
    | reset => exact ⟨_, step_of_port_reset hport⟩
    | loadTable table =>
      rw [hostObeys_loadTable, Bool.and_eq_true, decide_eq_true_iff] at h
      exact ⟨_, (step_of_port_loadTable hport).trans (if_neg (Nat.not_lt.mpr h.left))⟩
    | commandEarly cw => exact absurd h (by simp [hostObeys_commandEarly])
    | resetDuring cw => exact absurd h (by simp [hostObeys_resetDuring])

theorem hostObeys_of_step (h : s.hostObeys = true) (hstep : step s = .next t) : t.hostObeys = true := by
  rw [State.hostObeys] at h ⊢
  obtain ⟨-, rfl⟩ | ⟨cw, rest, hport, -, htake⟩ | ⟨rest, hport, rfl⟩ | ⟨table, rest, hport, -, rfl⟩ :=
    step_next_cases hstep
  · exact h
  · rw [hport, hostObeys_command, Bool.and_eq_true] at h
    obtain ⟨hphase, hport', -⟩ := takeWord_frame htake
    rw [hphase, hport']
    exact h.right
  · rwa [hport, hostObeys_reset] at h
  · rw [hport, hostObeys_loadTable, Bool.and_eq_true] at h
    exact h.right

/-! ### The duty to seed -/

/-- The duty to seed from this state on. -/
def State.seedsFirst (s : State) : Bool := Machine.seedsFirst s.seeded0 s.seeded1 s.port

theorem seedsFirst_command {cw : CommandWord} {rest : List HostAction} (hport : s.port = .command cw :: rest)
    (h : s.seedsFirst = true) :
    (∀ g, stepsKs g cw = true → s.seeded g = true) ∧
      Machine.seedsFirst (s.seeded0 || seedsKs .ks0 cw) (s.seeded1 || seedsKs .ks1 cw) rest = true := by
  simp only [State.seedsFirst, hport, Machine.seedsFirst, Bool.and_eq_true, Bool.or_eq_true, Bool.not_eq_true'] at h
  obtain ⟨⟨h0, h1⟩, hrest⟩ := h
  refine ⟨fun g hsteps => ?_, hrest⟩
  cases g with
  | ks0 => exact h0.resolve_left (by simp [hsteps])
  | ks1 => exact h1.resolve_left (by simp [hsteps])

theorem seedsFirst_of_step (h : s.seedsFirst = true) (hstep : step s = .next t) : t.seedsFirst = true := by
  obtain ⟨-, rfl⟩ | ⟨cw, rest, hport, -, htake⟩ | ⟨rest, hport, rfl⟩ | ⟨table, rest, hport, -, rfl⟩ :=
    step_next_cases hstep
  · exact h
  · have hseeded (g : KsId) : t.seeded g = (s.seeded g || seedsKs g cw) := by
      rw [seeded_of_takeWord htake, State.seeded_setPortPhase]
    have hseeded0 : t.seeded0 = (s.seeded0 || seedsKs .ks0 cw) := hseeded .ks0
    have hseeded1 : t.seeded1 = (s.seeded1 || seedsKs .ks1 cw) := hseeded .ks1
    obtain ⟨-, hport', -⟩ := takeWord_frame htake
    rw [State.seedsFirst, hseeded0, hseeded1, hport']
    exact (seedsFirst_command hport h).right
  · rwa [State.seedsFirst, hport] at h
  · rwa [State.seedsFirst, hport] at h

/-- The latest command was rejected with UNSEEDED (60_exceptions.md R163). -/
def State.UnseededSeen (s : State) : Prop := s.rej = true ∧ s.ecode = some .unseeded

/-- The decoder does not look at the generators. -/
theorem decode_ne_reject_unseeded (cw : CommandWord) : decode cw ≠ .reject .unseeded := by
  cases hop : Opcode.ofByte (cw.extractLsb' 0 8) with
  | none => simp [decode_of_ofByte_eq_none hop]
  | some o =>
    rw [decode_of_ofByte_eq_some hop]
    split <;> simp

/-- A word is rejected with UNSEEDED only if it steps a generator that is not seeded. -/
theorem stepsKs_of_execCause {cw : CommandWord} {i : Instr} (hdecode : decode cw = .instr i)
    (hcause : execCause s i = some .unseeded) : ∃ g, stepsKs g cw = true ∧ s.seeded g = false := by
  cases i with
  | ksNext g => exact ⟨g, by simp [stepsKs, hdecode], by simpa [execCause] using hcause⟩
  | xdWord g w => exact ⟨g, by simp [stepsKs, hdecode], by simpa [execCause] using hcause⟩
  | prEntry idx => simp [execCause] at hcause
  | _ => cases hcause

theorem takeWord_not_unseededSeen {cw : CommandWord} (hseeds : ∀ g, stepsKs g cw = true → s.seeded g = true)
    (htake : takeWord cw s = .next t) : ¬ t.UnseededSeen := by
  rintro ⟨hrej, hecode⟩
  obtain ⟨c, hdecode, rfl⟩ | ⟨i, hdecode, hexec⟩ := takeWord_next_cases htake
  · cases hecode
    exact decode_ne_reject_unseeded cw hdecode
  · obtain ⟨c, hcause, rfl⟩ := eq_reject_of_exec hexec hrej
    cases hecode
    obtain ⟨g, hsteps, hs⟩ := stepsKs_of_execCause hdecode hcause
    exact absurd ((hseeds g hsteps).symm.trans hs) (by decide)

theorem not_unseededSeen_of_step (hseeds : s.seedsFirst = true) (h : ¬ s.UnseededSeen) (hstep : step s = .next t) :
    ¬ t.UnseededSeen := by
  obtain ⟨-, rfl⟩ | ⟨cw, rest, hport, -, htake⟩ | ⟨rest, hport, rfl⟩ | ⟨table, rest, hport, -, rfl⟩ :=
    step_next_cases hstep
  · exact h
  · refine takeWord_not_unseededSeen (fun g hsteps => ?_) htake
    rw [State.seeded_setPortPhase]
    exact (seedsFirst_command hport hseeds).left g hsteps
  · exact fun hseen => absurd hseen.left (by simp)
  · exact h

/-- Every duty is kept from here on, and the latest command did not breach the duty to seed. -/
def State.Dutiful (s : State) : Prop := s.hostKeepsDuties = true ∧ ¬ s.UnseededSeen

theorem step_of_dutiful (h : s.Dutiful) : ∃ t, step s = .next t ∧ t.Dutiful := by
  obtain ⟨hduties, hseen⟩ := h
  obtain ⟨hobeys, hseeds⟩ : s.hostObeys = true ∧ s.seedsFirst = true := Bool.and_eq_true_iff.mp hduties
  obtain ⟨t, hstep⟩ := step_next_of_hostObeys hobeys
  exact ⟨t, hstep, Bool.and_eq_true_iff.mpr ⟨hostObeys_of_step hobeys hstep, seedsFirst_of_step hseeds hstep⟩,
    not_unseededSeen_of_step hseeds hseen hstep⟩

end Duties

/-- Settles O35: a step under the duties answers a next state, and hands the duties on. -/
theorem obedientHostNeverStops : Obligations.ObedientHostNeverStops := by
  intro k s h
  obtain ⟨t, hrun, -⟩ := run_of_step (P := fun s => s.hostObeys = true)
    (fun s hs => (step_next_of_hostObeys hs).imp fun t hstep => ⟨hstep, hostObeys_of_step hs hstep⟩) k h
  exact ⟨t, hrun⟩

/-- Settles O45: the duty to seed is handed on as well, and under it no command meets an unseeded generator. -/
theorem dutifulHostNeverUnseeded : Obligations.DutifulHostNeverUnseeded :=
  fun k s hduties hrej =>
    run_of_step (P := State.Dutiful) (fun _ => step_of_dutiful) k
      ⟨hduties, fun hseen => absurd (hrej.symm.trans hseen.left) (by decide)⟩

end Sys2Proof.Machine

/-! ## Slots in any order, on any blocks (48_host_sequences.md R148, R150)

A block that takes commands and holds the table gives a slot's record whatever it did before, so a schedule gives the
records of its slots. -/

namespace Sys2Proof.Machine

section Schedule

variable {buf : SaveBuffer} {off : Nat} {table : List TextUnit}

theorem decodePartyScheduled_of_length_lt (schedule : List (Fin 6 × Nat)) (sys : System)
    (hlen : buf.length < off + 1416) : decodePartyScheduled buf off schedule sys = .error .bufferTooShort :=
  if_pos hlen

theorem decodePartyScheduled_of_le (schedule : List (Fin 6 × Nat)) (sys : System) (hlen : off + 1416 ≤ buf.length) :
    decodePartyScheduled buf off schedule sys = decodeScheduled buf off schedule sys :=
  if_neg (Nat.not_lt.mpr hlen)

theorem ready_of_shareTable {sys : System} (hphase : ∀ b ∈ sys, b.phase ≠ .reloaded) (hshare : shareTable table sys) :
    ∀ b ∈ sys, b.ReadyWith table :=
  fun b hb => ⟨hphase b hb, hshare b hb⟩

/-- Each entry of a schedule gives the record of its slot's bytes. -/
theorem decodeScheduled_eq_partyRecord {schedule : List (Fin 6 × Nat)} {sys : System}
    (hlen : off + 1416 ≤ buf.length) (hsys : ∀ b ∈ sys, b.ReadyWith table)
    (hblocks : ∀ e ∈ schedule, e.2 < sys.length) :
    ∃ sys', decodeScheduled buf off schedule sys =
      .ok (schedule.map fun e => partyRecord table buf off e.1.val, sys') := by
  induction schedule generalizing sys with
  | nil => exact ⟨sys, rfl⟩
  | cons e schedule ih =>
    obtain ⟨slot, n⟩ := e
    obtain ⟨hn, hrest⟩ := List.forall_mem_cons.mp hblocks
    have hslot : off + slot.val * slotSize + slotSize ≤ buf.length := by
      have hlt := slot.isLt
      simp only [slotSize]
      omega
    obtain ⟨t, hdecode, ht⟩ := decodeSlot_eq_slotRecord hslot (hsys _ (List.getElem_mem hn))
    have hsys' : ∀ b ∈ sys.set n t, b.ReadyWith table := fun b hb => by
      obtain hb | rfl := List.mem_or_eq_of_mem_set hb
      · exact hsys b hb
      · exact ht
    obtain ⟨sys', hschedule⟩ := ih hsys' (by simpa using hrest)
    refine ⟨sys', ?_⟩
    simp only [decodeScheduled, List.getElem?_eq_getElem hn, hdecode, hschedule, ok_bind]
    rfl

theorem decodeScheduled_of_noSuchBlock (slot : Fin 6) {n : Nat} (rest : List (Fin 6 × Nat)) {sys : System}
    (hn : sys.length ≤ n) : decodeScheduled buf off ((slot, n) :: rest) sys = .error .noSuchBlock := by
  rw [decodeScheduled, List.getElem?_eq_none hn]

end Schedule

/-- Settles O46: the party decode and the schedule both give the records of the slots' bytes. -/
theorem slotsInAnyOrder : Obligations.SlotsInAnyOrder := by
  refine ⟨fun buf off => decodePartyScheduled_of_length_lt,
    fun buf off schedule s sys hlen hphase hsys hshare hblocks => ?_, fun buf off slot n rest sys hlen hn => ?_⟩
  · obtain ⟨t, hparty, -⟩ := decodeParty_eq_partyRecord hlen ⟨hphase, rfl⟩
    obtain ⟨sys', hschedule⟩ := decodeScheduled_eq_partyRecord hlen (ready_of_shareTable hsys hshare) hblocks
    refine ⟨_, t, _, sys', hparty, (decodePartyScheduled_of_le schedule sys hlen).trans hschedule, ?_⟩
    simp
  · rw [decodePartyScheduled_of_le _ _ hlen, decodeScheduled_of_noSuchBlock slot rest hn]

/-- Settles O41: a block apart for each slot is one of the schedules, with the slots in order. -/
theorem slotsOnBlocksApart : Obligations.SlotsOnBlocksApart := by
  refine ⟨fun buf off => decodePartyScheduled_of_length_lt _,
    fun buf off s sys hlen hphase hsix hsys hshare => ?_⟩
  obtain ⟨t, hparty, -⟩ := decodeParty_eq_partyRecord hlen ⟨hphase, rfl⟩
  obtain ⟨sys', hschedule⟩ := decodeScheduled_eq_partyRecord
    (schedule := [(0, 0), (1, 1), (2, 2), (3, 3), (4, 4), (5, 5)]) hlen (ready_of_shareTable hsys hshare)
    (by simp; omega)
  exact ⟨_, t, sys', hparty, (decodePartyScheduled_of_le _ sys hlen).trans hschedule⟩

end Sys2Proof.Machine

/-! ## Text units of any type (00_scope.md R6)

A lookup selects a unit by the code and the length of the table alone, so it commutes with reading or renaming units. -/

namespace Sys2Proof.Machine

/-! ### The system's own units -/

theorem nameOf_map {T U : Type} (f : T → U) (table : List T) (codes : List Half) :
    nameOf (table.map f) codes = (nameOf table codes).map f := by
  have hruns : codeRuns (table.map f) = codeRuns table := by
    funext code
    rw [codeRuns, List.length_map, codeRuns]
  simp [nameOf, hruns, List.map_filterMap]

theorem txtAs_of_exec_cmLookup {T : Type} (value : UnitReading T) {s t : State} {code : Half}
    (hexec : exec (.cmLookup code) s = .next t) : t.txtAs value = textUnitOf (s.tableAs value) code := by
  cases hexec
  exact (textUnitOf_map value s.charTable code).symm

theorem map_unitsOf_unitNames {T : Type} (table : List T) : (unitNames table).map (unitsOf table) = table.map some := by
  refine List.ext_getElem (by simp [unitNames]) fun i hi hi' => ?_
  have hlt : i < table.length := by simpa using hi'
  simp [unitNames, unitsOf, hlt]

/-- Settles O47: reading the table in another type commutes with the lookup and with the name. -/
theorem anyTextUnitsCovered : Obligations.AnyTextUnitsCovered := by
  refine ⟨fun T value s code => ?_, fun T value slot s hlen hphase => ?_, fun T => map_unitsOf_unitNames⟩
  · obtain ⟨t, hexec⟩ := exec_next (.cmLookup code) s
    refine ⟨t, hexec, congrArg (List.map value) (exec_keeps_charTable hexec), ?_⟩
    rw [txtAs_of_exec_cmLookup value hexec, textUnitOf_eq]
  · obtain ⟨t, hdecode, -⟩ := decodeSlotBytes_eq_slotRecord hlen ⟨hphase, rfl⟩
    exact ⟨_, t, hdecode, (nameOf_map value s.charTable (nameCodes slot)).symm⟩

/-! ### Renaming -/

section Rename

variable (f : TextUnit → TextUnit)

/-- An outcome with the text units of its next state renamed. -/
def renameOutcome : Host.Outcome State Fault Refusal → Host.Outcome State Fault Refusal
  | .next t    => .next (t.renameUnits f)
  | .fault r   => .fault r
  | .refused r => .refused r

theorem State.stepOrReject_renameUnits (s : State) (g : KsId) (value : Half → Half) :
    (s.renameUnits f).stepOrReject g value = (s.stepOrReject g value).renameUnits f := by
  have hseeded : (s.renameUnits f).seeded g = s.seeded g := by cases g <;> rfl
  cases hs : s.seeded g with
  | true =>
    have hks : (s.renameUnits f).ks g = s.ks g := by cases g <;> rfl
    rw [State.stepOrReject_of_seeded value hs, State.stepOrReject_of_seeded value (hseeded.trans hs), State.stepKs,
      State.stepKs, hks]
    generalize lcg (s.ks g) = k
    cases g <;> rfl
  | false =>
    rw [State.stepOrReject_of_unseeded value hs, State.stepOrReject_of_unseeded value (hseeded.trans hs)]
    rfl

theorem exec_renameUnits (i : Instr) (s : State) : exec i (s.renameUnits f) = renameOutcome f (exec i s) := by
  cases i with
  | ksSeed g seed => cases g <;> rfl
  | ksNext g => exact congrArg Host.Outcome.next (s.stepOrReject_renameUnits f g _)
  | xdWord g w => exact congrArg Host.Outcome.next (s.stepOrReject_renameUnits f g _)
  | prEntry idx => 
    rw [exec, exec, execPrEntry, execPrEntry]
    split <;> rfl
  | cmLookup code =>
    rw [exec, execCmLookup, State.renameUnits_charTable, List.length_map, textUnitOf_map]
    rfl
  | cmLen =>
    rw [exec, execCmLen, State.renameUnits_charTable, List.length_map]
    rfl
  | _ => rfl

theorem takeWord_renameUnits (cw : CommandWord) (s : State) :
    takeWord cw (s.renameUnits f) = renameOutcome f (takeWord cw s) := by
  rw [takeWord, takeWord]
  cases decode cw with
  | instr i => exact exec_renameUnits f i s
  | reject c => rfl

theorem step_renameUnits (s : State) : step (s.renameUnits f) = renameOutcome f (step s) := by
  cases hport : s.port with
  | nil =>
    have hnil : (s.renameUnits f).port = [] := by rw [State.renameUnits_port, hport, List.map_nil]
    rw [step_of_port_nil hport, step_of_port_nil hnil, renameOutcome]
  | cons a rest =>
    have hcons : (s.renameUnits f).port = a.renameUnits f :: rest.map (HostAction.renameUnits f) := by
      rw [State.renameUnits_port, hport, List.map_cons]
    cases a with
    | command cw =>
      by_cases hphase : s.phase = .reloaded
      · rw [step_of_port_command_reloaded hport hphase, step_of_port_command_reloaded hcons hphase, renameOutcome]
      · rw [step_of_port_command hport hphase, step_of_port_command hcons hphase, ← takeWord_renameUnits]
        rfl
    | reset =>
      rw [step_of_port_reset hport, step_of_port_reset hcons]
      rfl
    | loadTable table =>
      rw [step_of_port_loadTable hport, step_of_port_loadTable hcons, List.length_map]
      split <;> rfl
    | commandEarly cw => rw [step_of_port_commandEarly hport, step_of_port_commandEarly hcons, renameOutcome]
    | resetDuring cw => rw [step_of_port_resetDuring hport, step_of_port_resetDuring hcons, renameOutcome]

end Rename

/-- Settles O48: the step of the renamed state is the renamed outcome of the step. -/
theorem textUnitsNeverInspected : Obligations.TextUnitsNeverInspected :=
  fun f s => ⟨fun t hstep => by rw [step_renameUnits, hstep, renameOutcome],
    fun r hstep => by rw [step_renameUnits, hstep, renameOutcome]⟩

end Sys2Proof.Machine

/-! ## The assembler's words (30_encoding.md R62, R70)

The fields of a word do not overlap, so its number is the sum of theirs, each at its place. -/

namespace Sys2Proof

theorem toNat_append_eq_add {m n : Nat} (x : BitVec m) (y : BitVec n) :
    (x ++ y).toNat = 2 ^ n * x.toNat + y.toNat := by
  rw [BitVec.toNat_append, ← Nat.shiftLeft_add_eq_or_of_lt y.isLt, Nat.shiftLeft_eq, Nat.mul_comm]

/-- A word is its fields side by side (30_encoding.md R61). -/
theorem C64.toWord_eq_append (f : C64) : f.toWord = f.d32 ++ f.a16 ++ f.z ++ f.g ++ f.op := by
  ext i hi
  simp only [C64.toWord, zext64, BitVec.getElem_or, BitVec.getElem_shiftLeft, BitVec.getElem_setWidth]
  grind

theorem C64.toNat_toWord (f : C64) :
    f.toWord.toNat =
      f.op.toNat + 2 ^ 8 * f.g.toNat + 2 ^ 9 * f.z.toNat + 2 ^ 16 * f.a16.toNat + 2 ^ 32 * f.d32.toNat := by
  rw [C64.toWord_eq_append]
  simp only [toNat_append_eq_add]
  omega

/-- The word of a command as the sum of R62; its must-be-zero bits add nothing. -/
theorem toNat_encode (i : Instr) :
    (encode i).toNat =
      i.opcode.code.toNat + 2 ^ 8 * i.fields.g.toNat + 2 ^ 16 * i.fields.a16.toNat + 2 ^ 32 * i.fields.d32.toNat := by
  have hop : i.fields.op = i.opcode.code := by cases i <;> rfl
  have hz : i.fields.z = 0 := by cases i <;> rfl
  rw [encode, C64.toNat_toWord, hop, hz]
  rfl

end Sys2Proof

namespace Sys2Proof.Machine

section Words

variable {a : AsmInstr} {i : Instr} {n : Nat} {fits : Prop} [Decidable fits]

/-- A line that is one command gives that command's word if its operands fit, and is an error otherwise. -/
theorem toNat_assemble (hexpand : expandAsm a = [i]) (hfits : a.wellFormed = true ↔ fits)
    (hword : fits → (encode i).toNat = n) :
    (assemble a).map (List.map BitVec.toNat) = if fits then some [n] else none := by
  rw [assemble, hexpand]
  by_cases h : fits
  · rw [if_pos (hfits.mpr h), if_pos h, ← hword h]
    rfl
  · rw [if_neg (mt hfits.mp h), if_neg h]
    rfl

theorem fitsBits_iff (bits n : Nat) : fitsBits bits n = true ↔ n ≤ 2 ^ bits - 1 := by
  have hpos := Nat.two_pow_pos bits
  rw [fitsBits, decide_eq_true_iff]
  omega

theorem bit_asmKs (g : Nat) : (asmKs g).bit = BitVec.ofNat 1 g := KsId.bit_ofBit _

end Words

/-- Settles O43: the operands that fit are written to their fields, and the word is the sum of its fields. -/
theorem assemblerBuildsWords : Obligations.AssemblerBuildsWords := by
  refine ⟨rfl, rfl, fun g d => ?_, fun g => ?_, fun g w => ?_, fun d => ?_, fun d b => ?_, fun k => ?_, fun c => ?_⟩
  · refine toNat_assemble rfl (by simp [AsmInstr.wellFormed, fitsBits_iff]) fun ⟨hg, hd⟩ => ?_
    simp (disch := omega) [toNat_encode, Instr.fields, Instr.opcode, Opcode.code, Nat.mod_eq_of_lt, bit_asmKs]
  · refine toNat_assemble rfl (by simp [AsmInstr.wellFormed, fitsBits_iff]) fun hg => ?_
    simp (disch := omega) [toNat_encode, Instr.fields, Instr.opcode, Opcode.code, Nat.mod_eq_of_lt, bit_asmKs]
  · refine toNat_assemble rfl (by simp [AsmInstr.wellFormed, fitsBits_iff]) fun ⟨hg, hw⟩ => ?_
    simp (disch := omega) [toNat_encode, Instr.fields, Instr.opcode, Opcode.code, Nat.mod_eq_of_lt, bit_asmKs]
  · refine toNat_assemble rfl (by simp [AsmInstr.wellFormed, fitsBits_iff]) fun hd => ?_
    simp (disch := omega) [toNat_encode, Instr.fields, Instr.opcode, Opcode.code, Nat.mod_eq_of_lt]
  · refine toNat_assemble rfl (by simp [AsmInstr.wellFormed, fitsBits_iff]) fun ⟨hd, hb⟩ => ?_
    simp (disch := omega) [toNat_encode, Instr.fields, Instr.opcode, Opcode.code, Nat.mod_eq_of_lt, BlockId.bits_ofBits]
  · refine toNat_assemble rfl (by simp [AsmInstr.wellFormed, fitsBits_iff]) fun hk => ?_
    simp (disch := omega) [toNat_encode, Instr.fields, Instr.opcode, Opcode.code, Nat.mod_eq_of_lt]
  · refine toNat_assemble rfl (by simp [AsmInstr.wellFormed, fitsBits_iff]) fun hc => ?_
    simp (disch := omega) [toNat_encode, Instr.fields, Instr.opcode, Opcode.code, Nat.mod_eq_of_lt]

end Sys2Proof.Machine
